-- ==== Sys2Proof/Word.lean ====
section
/-! DEFINITION. The words of the T32 manual: bytes, line codes, time stamps, and the numbers of trunks, groups,
profiles, tone units and digits (00_scope.md, Conventions). -/

namespace Sys2Proof

/-- A character's eight data bits, a payload byte or an 8-bit speech code. -/
abbrev Byte := BitVec 8

/-- A line code, 0 to 7 (R1, R8). -/
abbrev LineCode := BitVec 3

/-- A reading of the 32-bit millisecond counter (R3). -/
abbrev Stamp := BitVec 32

/-- A call reference or the incoming sequence number, 16 bits (R43, R170). -/
abbrev CallRef := BitVec 16

/-- Trunks T0 to T31. -/
abbrev TrunkNo := Fin 32

/-- Tone units U0 to U7. -/
abbrev UnitNo := Fin 8

/-- Profiles P0 to P3. -/
abbrev ProfileNo := Fin 4

/-- Trunk groups G0 to G7. -/
abbrev GroupNo := Fin 8

/-- A digit, 0 to 9. -/
abbrev Digit := Fin 10

end Sys2Proof
end

