-- ==== Sys2Proof/Config.lean ====
section
/-! DEFINITION. What the manual fixes once for the part (00_scope.md, Capacities), and the one thing it leaves to the
shelf: the levels strapped on the unit's pins. No value of the manual is left open by it, so no free value stands here. -/

namespace Sys2Proof

/-- The levels on the strap pins when a reset reads them (R179, R181): `true` and 1 are a high level.
`rate` is RATE2 to RATE0, `addr` is ADDR4 to ADDR0, most significant first. -/
structure Straps where
  rate : BitVec 3
  addr : BitVec 5
  addrp : Bool
deriving DecidableEq, Repr

/-- DESIGN CHOICE (unsafe, log entry 1): the straps that the power-on behind `State.reset` reads. Rate setting 0, and
address 0 with the parity strap low, so that the address is valid by R181. -/
def Config.resetStraps : Straps := { rate := 0, addr := 31, addrp := false }

/-- The revision of the parts the manual describes (R188). -/
def Config.revision : Nat := 1

/-- Places in each digit store (R148, R149). -/
def Config.storeRoom : Nat := 24

/-- Entries in the report queue (R192). -/
def Config.reportRoom : Nat := 64

/-- A condition report joins only below this many entries (R194). -/
def Config.conditionRoom : Nat := 56

/-- Places in the test wait queue (R96). -/
def Config.testRoom : Nat := 4

/-- The wait of a test request, 10 s (R96). -/
def Config.testWait : Nat := 10000

/-- Report bytes in one POLL reply (R197). -/
def Config.pollRoom : Nat := 240

/-- Samples in a tone block (R106). -/
def Config.blockLength : Nat := 160

/-- The highest value of a traffic counter (R176). -/
def Config.counterMax : Nat := 4294967295

/-- The highest value of a duration (R173). -/
def Config.durationMax : Nat := 16777215

end Sys2Proof
end

