-- ==== Sys2Proof/Syntax.lean ====
section
/-! DEFINITION. The commands of the block: one constructor for each row of spec/opcode_table.json, with the operands the
manual gives the step. A trunk's or a tone unit's own event names the trunk or the unit; a host command carries its
payload bytes. -/

namespace Sys2Proof

/-- One signalling frame of 104 bits, the first bit on the highway in the most significant place (R1, R8). -/
abbrev SigFrame := BitVec 104

/-- Samples of CMD, taken one after another at 16 times the bit rate; `true` is a sample at 1 (R180). -/
abbrev CharSamples := List Bool

/-- How a frame is addressed: to this unit's own address, or to address 31 (R182). -/
inductive Dest where
  | own
  | broadcast
deriving DecidableEq, Repr

/-- A frame that has ended at the unit (R183): its addressing, its errored mark, and its data characters in order, LEN
first. Where LEN was unreadable or out of range the frame ended at LEN. -/
structure Frame where
  dest : Dest
  errored : Bool
  data : List Byte
deriving DecidableEq, Repr

/-- The steps of the T32, one for each row of the table. -/
inductive Instr where
  /-- R200: power-on, with the levels on the strap pins. -/
  | powerOnReset (straps : Straps)
  /-- R200: a low level on RESET, with the levels on the strap pins. -/
  | pinReset (straps : Straps)
  /-- R2: a frame sync edge arrives. -/
  | fsEdge
  /-- R2: the fourth consecutive expected FS edge has not arrived. -/
  | fsLoss
  /-- R3: the time base makes a millisecond event. -/
  | millisecondEvent
  /-- R4, R1: the transmit frame event. -/
  | transmitFrameEvent
  /-- R4, R173: the duration tick. -/
  | durationTick
  /-- R7: the bits after an FS edge, examined in SEARCHING. -/
  | huntAlignmentWord (frame : SigFrame)
  /-- R8: the bits of a signalling frame at the received frame position, in ALIGNED. -/
  | receivedFrameEvent (frame : SigFrame)
  /-- R11: the bits of a signalling frame at the received frame position, in HOLD. -/
  | holdAlignmentWord (frame : SigFrame)
  /-- R12: the hold limit timer expires. -/
  | holdLimitExpiry
  /-- R45 -/
  | ackTimerExpiry (t : TrunkNo)
  /-- R51 -/
  | answerWaitExpiry (t : TrunkNo)
  /-- R53 -/
  | clearBackTimerExpiry (t : TrunkNo)
  /-- R56 -/
  | releaseTimerExpiry (t : TrunkNo)
  /-- R62 -/
  | guardTimerExpiry (t : TrunkNo)
  /-- R74 -/
  | sendBreakExpiry (t : TrunkNo)
  /-- R74 -/
  | sendMakeExpiry (t : TrunkNo)
  /-- R75 -/
  | pauseTimerExpiry (t : TrunkNo)
  /-- R75 -/
  | decadicSenderDigitWait (t : TrunkNo)
  /-- R81, R82 -/
  | digitEndTimerExpiry (t : TrunkNo)
  /-- R83, R86 -/
  | clearRecognitionExpiry (t : TrunkNo)
  /-- R84 -/
  | decadicDigitWaitExpiry (t : TrunkNo)
  /-- R93 -/
  | callWaitExpiry (t : TrunkNo)
  /-- R96 -/
  | testWaitExpiry (t : TrunkNo)
  /-- R111: a block of 160 samples of the unit has ended. -/
  | toneBlockEvent (u : UnitNo)
  /-- R127 -/
  | senderDigitWaitExpiry (t : TrunkNo)
  /-- R129 -/
  | senderInterlockExpiry (t : TrunkNo)
  /-- R136 -/
  | receiverInterlockExpiry (t : TrunkNo)
  /-- R137 -/
  | receiverDigitWaitExpiry (t : TrunkNo)
  /-- R140 -/
  | pulseTimerExpiry (t : TrunkNo)
  /-- R141 -/
  | hostDecisionWaitExpiry (t : TrunkNo)
  /-- R195: the oldest entry's arrival age reaches the hold time. -/
  | attnHoldTimeReached
  /-- R184: a frame ends at the unit and is judged. -/
  | commandFrame (frame : Frame)
  /-- R185: the stop bit of the reply's last character has been sent. -/
  | replyComplete
  /-- R26 -/
  | setProfile (payload : List Byte)
  /-- R28 -/
  | getProfile (payload : List Byte)
  /-- R31 -/
  | setTrunk (payload : List Byte)
  /-- R153 -/
  | setAnalysis (payload : List Byte)
  /-- R154 -/
  | getAnalysis (payload : List Byte)
  /-- R196 -/
  | setReporting (payload : List Byte)
  /-- R43 -/
  | seize (payload : List Byte)
  /-- R150 -/
  | addDigits (payload : List Byte)
  /-- R151 -/
  | acceptDigits (payload : List Byte)
  /-- R59 -/
  | answer (payload : List Byte)
  /-- R60 -/
  | clearBack (payload : List Byte)
  /-- R54 -/
  | release (payload : List Byte)
  /-- R66 -/
  | block (payload : List Byte)
  /-- R67 -/
  | unblock (payload : List Byte)
  /-- R71 -/
  | resetTrunk (payload : List Byte)
  /-- R72 -/
  | queryTrunk (payload : List Byte)
  /-- R95 -/
  | measure (payload : List Byte)
  /-- R102 -/
  | queryPool (payload : List Byte)
  /-- R177 -/
  | readTraffic (payload : List Byte)
  /-- R197 -/
  | poll (payload : List Byte)
  /-- R199 -/
  | readFault (payload : List Byte)
  /-- R199 -/
  | clearFault (payload : List Byte)
  /-- R188 -/
  | identify (payload : List Byte)
  /-- R187: RESET, as a broadcast or addressed to this unit. -/
  | reset (dest : Dest) (payload : List Byte)
  /-- R187, R6: TIME-MARK, as a broadcast or addressed to this unit. -/
  | timeMark (dest : Dest) (payload : List Byte)
  /-- R4, R18, R19: a speech frame, with the 32 samples of LRX and of SWX. -/
  | sampleEvent (lrx swx : Vector Byte 32)
  /-- R180, R182: samples of CMD, such as those of one character. -/
  | characterReceived (samples : CharSamples)
deriving DecidableEq, Repr

end Sys2Proof
end

