-- ==== Sys2Proof/WellFormed.lean ====
section
/-! DEFINITION. Which commands are well formed as syntax: a payload fits a frame, and a frame that has ended has the
shape R183 gives it. Everything else about a command is fixed by the types of its operands. -/

namespace Sys2Proof

/-- A payload holds 0 to 249 bytes (00_scope.md, Messages; R182). -/
def payloadFits (p : List Byte) : Bool := p.length ≤ 249

/-- R183: LEN is in its range. -/
def lenInRange (len : Byte) : Bool := 1 ≤ len.toNat && len.toNat ≤ 250

/-- R183: a frame ends at its LEN where LEN is out of range or unreadable (then it is errored), and otherwise when
LEN + 2 data characters have been stored. -/
def Frame.wellFormed (f : Frame) : Bool :=
  match f.data with
  | [] => false
  | [len] => f.errored || !lenInRange len
  | len :: rest => lenInRange len && rest.length == len.toNat + 1

/-- The well-formed commands. -/
def Instr.wellFormed : Instr → Bool
  | .powerOnReset _ => true
  | .pinReset _ => true
  | .fsEdge => true
  | .fsLoss => true
  | .millisecondEvent => true
  | .transmitFrameEvent => true
  | .durationTick => true
  | .huntAlignmentWord _ => true
  | .receivedFrameEvent _ => true
  | .holdAlignmentWord _ => true
  | .holdLimitExpiry => true
  | .ackTimerExpiry _ => true
  | .answerWaitExpiry _ => true
  | .clearBackTimerExpiry _ => true
  | .releaseTimerExpiry _ => true
  | .guardTimerExpiry _ => true
  | .sendBreakExpiry _ => true
  | .sendMakeExpiry _ => true
  | .pauseTimerExpiry _ => true
  | .decadicSenderDigitWait _ => true
  | .digitEndTimerExpiry _ => true
  | .clearRecognitionExpiry _ => true
  | .decadicDigitWaitExpiry _ => true
  | .callWaitExpiry _ => true
  | .testWaitExpiry _ => true
  | .toneBlockEvent _ => true
  | .senderDigitWaitExpiry _ => true
  | .senderInterlockExpiry _ => true
  | .receiverInterlockExpiry _ => true
  | .receiverDigitWaitExpiry _ => true
  | .pulseTimerExpiry _ => true
  | .hostDecisionWaitExpiry _ => true
  | .attnHoldTimeReached => true
  | .commandFrame f => f.wellFormed
  | .replyComplete => true
  | .setProfile p => payloadFits p
  | .getProfile p => payloadFits p
  | .setTrunk p => payloadFits p
  | .setAnalysis p => payloadFits p
  | .getAnalysis p => payloadFits p
  | .setReporting p => payloadFits p
  | .seize p => payloadFits p
  | .addDigits p => payloadFits p
  | .acceptDigits p => payloadFits p
  | .answer p => payloadFits p
  | .clearBack p => payloadFits p
  | .release p => payloadFits p
  | .block p => payloadFits p
  | .unblock p => payloadFits p
  | .resetTrunk p => payloadFits p
  | .queryTrunk p => payloadFits p
  | .measure p => payloadFits p
  | .queryPool p => payloadFits p
  | .readTraffic p => payloadFits p
  | .poll p => payloadFits p
  | .readFault p => payloadFits p
  | .clearFault p => payloadFits p
  | .identify p => payloadFits p
  | .reset _ p => payloadFits p
  | .timeMark _ p => payloadFits p
  | .sampleEvent _ _ => true
  | .characterReceived _ => true

end Sys2Proof
end

