-- ==== Sys2Proof/Decode.lean ====
section
/-! DEFINITION. The command that a word of the opcode table spells. spec/opcode_table.json gives no row any bits (every
row's "fields" is empty), so no word spells a command. -/

namespace Sys2Proof

/-- No row of the table gives bits, so every word spells no command. -/
def decodeTableWord (_nbits _w : Nat) : Option Instr := none

end Sys2Proof
end

