-- ==== Sys2Proof/Machine/Straps.lean ====
section
/-! DEFINITION. The unit address read from its active-low straps (R181). -/

namespace Sys2Proof.Machine

/-- R181: the address is the inverted value of ADDR4 to ADDR0. -/
def strapAddress (straps : Straps) : BitVec 5 := ~~~straps.addr

/-- How many of the six address pins stand at low level (R181). -/
def lowPins (straps : Straps) : Nat :=
  (List.range 5).countP (fun k => !straps.addr.getLsbD k) + (if straps.addrp then 0 else 1)

/-- R181: an odd number of the six pins are at low level, and the address is not 31. -/
def addressValid (straps : Straps) : Bool := lowPins straps % 2 == 1 && strapAddress straps != 31

end Sys2Proof.Machine
end

