-- ==== Sys2Proof/Machine/State.lean ====
section
/-! DEFINITION. The state of the T32, as plain data: every register, store, queue, record and pin that the manual names,
and the queue of commands that wait. The rule that names a part stands in its docstring. -/

namespace Sys2Proof.Machine

/-! ### Reasons to stop -/

/-- The T32 has no command on which the manual stops it, so no fault exists. -/
inductive Fault where
deriving DecidableEq, Repr

/-- Refusals. -/
inductive Refusal where
  /-- Raised by `exec` alone, for a command that has no meaning yet; safe. No arm raises it in this model. -/
  | notModelled (mnemonic : String)
deriving DecidableEq, Repr

/-! ### Profiles (02_profiles_and_the_trunk_table.md) -/

/-- The nine send codes of a profile (R21). -/
structure SendCodes where
  fIdle : LineCode := 1
  fSeize : LineCode := 0
  fClear : LineCode := 1
  bIdle : LineCode := 1
  bAck : LineCode := 3
  bAnswer : LineCode := 5
  bClearback : LineCode := 2
  bBlock : LineCode := 7
  bGuard : LineCode := 7
deriving DecidableEq, Repr

/-- The register method of a profile (R22). -/
inductive RegisterMethod where
  | noRegister
  | decadic
  | tone
deriving DecidableEq, Repr

/-- The analysis mode of a profile (R22). -/
inductive AnalysisMode where
  | host
  | table
deriving DecidableEq, Repr

/-- The default outcome of a profile (R22). -/
inductive DefaultOutcome where
  | openNumber
  | refuse
deriving DecidableEq, Repr

/-- The category request policy of a profile (R22). -/
inductive CategoryPolicy where
  | never
  | afterFirstDigit
deriving DecidableEq, Repr

/-- A profile record, with its default values (R20, R21, R22). Times stand in the unit of their setting. -/
structure Profile where
  codes : SendCodes := {}
  method : RegisterMethod := .noRegister
  mode : AnalysisMode := .host
  defaultOutcome : DefaultOutcome := .openNumber
  categoryPolicy : CategoryPolicy := .never
  holdCount : Bool := false
  linePersistence : Nat := 10
  pulsePersistence : Nat := 3
  ackTimer : Nat := 500
  releaseTimer : Nat := 3000
  guardTimer : Nat := 600
  answerWait : Nat := 0
  clearBackTimer : Nat := 90
  sendBreak : Nat := 60
  sendMake : Nat := 40
  sendPause : Nat := 700
  breakMin : Nat := 30
  breakMax : Nat := 90
  makeMin : Nat := 20
  digitEnd : Nat := 200
  clearRecognition : Nat := 250
  firstDigitWait : Nat := 10
  interDigitWait : Nat := 10
  openNumberWait : Nat := 4
  senderDigitWait : Nat := 10
  unitWait : Nat := 2000
  minAmplitude : Nat := 64
  sendAmplitude : Nat := 1600
  interlock : Nat := 15
  pulseDuration : Nat := 150
  hostDecision : Nat := 3
deriving DecidableEq, Repr

/-! ### The trunk table (02, 03) -/

/-- The role of a trunk (R30). -/
inductive Role where
  | unequipped
  | outgoing
  | incoming
  | bothWay
deriving DecidableEq, Repr

/-- The glare role of a trunk (R30). -/
inductive GlareRole where
  | yield
  | priority
deriving DecidableEq, Repr

/-- The eighteen supervision states, in the order of their codes (R35, R72). -/
inductive TrunkState where
  | unequipped
  | idle
  | localBlocked
  | remoteBlocked
  | failed
  | outSeizing
  | outSelecting
  | outWaitAnswer
  | outAnswered
  | outClearback
  | outRejected
  | outClearing
  | inSelecting
  | inWaitAnswer
  | inAnswered
  | inClearback
  | inRejected
  | inGuard
deriving DecidableEq, Repr

/-- The causes of R175, in the order of their codes (R190). -/
inductive Cause where
  | normal
  | ackTimeout
  | releaseTimeout
  | noAnswer
  | clearbackTimeout
  | noUnit
  | digitTimeout
  | interlockTimeout
  | protocol
  | congestion
  | unobtainable
  | holdLimit
  | inletCleared
  | overflow
  | reset
deriving DecidableEq, Repr

/-- The outcome a register phase hands up: COMPLETE, or a rejection with its cause (R46, R58). -/
inductive RegOutcome where
  | complete
  | reject (cause : Cause)
deriving DecidableEq, Repr

/-- The outcome field of REGISTER-END, LINK-END and ACCEPT-DIGITS (R190). -/
inductive RegResult where
  | complete
  | congestion
  | unobtainable
deriving DecidableEq, Repr

/-- The category of the calling party (R43, R120). -/
inductive Category where
  | ordinary
  | priority
  | test
deriving DecidableEq, Repr

/-- The supervision timers of a trunk (R34), in the order of their codes (R72). -/
inductive SupervisionKind where
  | ack
  | answerWait
  | clearBack
  | release
  | guard
deriving DecidableEq, Repr

/-- A supervision timer with the millisecond events it still needs (R5, R34). -/
structure SupervisionTimer where
  kind : SupervisionKind
  left : Nat
deriving DecidableEq, Repr

/-- The role of a tone unit held for signalling (R88). -/
inductive UnitRole where
  | sender
  | receiver
deriving DecidableEq, Repr

/-- A tone unit held for signalling, in the trunk record (R34). -/
structure HeldUnit where
  unit : UnitNo
  role : UnitRole
deriving DecidableEq, Repr

/-- A trunk's part in a relay link (R159). -/
inductive LinkPart where
  | inlet
  | outlet
deriving DecidableEq, Repr

/-- The link peer in a trunk record, with this trunk's part (R34, R159). -/
structure LinkEnd where
  peer : TrunkNo
  part : LinkPart
deriving DecidableEq, Repr

/-- The link record of a relay link; the model keeps it with the inlet's trunk record (R159). DESIGN CHOICE, safe, log
entry 17. -/
structure LinkRecord where
  delete : Nat
  relayed : Nat
  inletComplete : Bool
deriving DecidableEq, Repr

/-! ### Line-code receivers (01) -/

/-- The filter mode of a line-code receiver (R15). -/
inductive FilterMode where
  | line
  | pulse
deriving DecidableEq, Repr

/-- A candidate code with its count (R14). -/
structure Candidate where
  code : LineCode
  count : Nat
deriving DecidableEq, Repr

/-- A line-code receiver; an accepted code of `none` is UNKNOWN (R14, R17). -/
structure LineReceiver where
  accepted : Option LineCode := none
  candidate : Option Candidate := none
  mode : FilterMode := .line
deriving DecidableEq, Repr

/-! ### The decadic engine (04) -/

/-- The phases of a sending context (R73). -/
inductive SendPhase where
  | pause
  | breaking
  | making
  | waiting
deriving DecidableEq, Repr

/-- A sending context (R73). The timer is that of the phase: pause, break, make or sender digit wait. -/
structure DecadicSender where
  phase : SendPhase
  breaks : Nat
  interrupted : Bool
  timer : Option Nat
deriving DecidableEq, Repr

/-- The line condition of a receiving context (R78). -/
inductive LineCondition where
  | broken
  | made
deriving DecidableEq, Repr

/-- The phases of a receiving context (R78). -/
inductive CountPhase where
  | between
  | counting
  | rejecting
deriving DecidableEq, Repr

/-- The digit waits of an incoming number (R78, R84). -/
inductive DigitWaitKind where
  | firstDigit
  | interDigit
  | openNumber
deriving DecidableEq, Repr

/-- A digit wait with the millisecond events it still needs. -/
structure DigitWait where
  kind : DigitWaitKind
  left : Nat
deriving DecidableEq, Repr

/-- A receiving context (R78): `since` counts the millisecond events since the line condition was accepted. -/
structure DecadicReceiver where
  phase : CountPhase
  line : LineCondition
  since : Nat
  pulses : Nat
  wait : Option DigitWait
  digitEnd : Option Nat
  clearRec : Option Nat
  complete : Bool
deriving DecidableEq, Repr

/-- A clear watch (R86). -/
structure ClearWatch where
  line : LineCondition
  clearRec : Option Nat
deriving DecidableEq, Repr

/-- The decadic engine's context of a trunk (R73, R78, R86). -/
inductive DecadicContext where
  | sending (c : DecadicSender)
  | receiving (c : DecadicReceiver)
  | watching (c : ClearWatch)
deriving DecidableEq, Repr

/-! ### Tone signals and the interlocked tone engine (06, 07) -/

/-- The forward tone signals (R112, R120). -/
inductive ForwardSignal where
  | ft1 | ft2 | ft3 | ft4 | ft5 | ft6 | ft7 | ft8 | ft9 | ft10 | ft11 | ft12 | ft13 | ft14 | ft15
deriving DecidableEq, Repr

/-- The backward tone signals (R112, R120). -/
inductive BackwardSignal where
  | bt1 | bt2 | bt3 | bt4 | bt5 | bt6
deriving DecidableEq, Repr

/-- A tone signal of either group. -/
inductive ToneSignal where
  | forward (f : ForwardSignal)
  | backward (b : BackwardSignal)
deriving DecidableEq, Repr

/-- An item a tone sender sends: the digit at a position (from 1), the category, or the end of number (R122). -/
inductive SendItem where
  | digit (pos : Nat)
  | category
  | endOfNumber
deriving DecidableEq, Repr

/-- The timers of an interlocked tone engine context (R145); the sender runs the first two. -/
inductive ToneTimerKind where
  | interlock
  | senderWait
  | interDigit
  | openNumber
  | hostDecision
  | pulse
deriving DecidableEq, Repr

/-- The one timer of a context (R121). -/
structure ToneTimer where
  kind : ToneTimerKind
  left : Nat
deriving DecidableEq, Repr

/-- The phases of a sender context (R121). -/
inductive ToneSendPhase where
  | sending
  | answered
  | waiting
deriving DecidableEq, Repr

/-- A sender context (07, The Sender). Its send position is that of the trunk's send store (R149). -/
structure ToneSender where
  phase : ToneSendPhase
  item : Option SendItem
  lastSent : Option Nat
  noted : Option BackwardSignal
  timer : Option ToneTimer
deriving DecidableEq, Repr

/-- The phases of a receiver context (07, The Receiver). -/
inductive ToneReceivePhase where
  | listening
  | held
  | responding
  | pulsing
  | final
deriving DecidableEq, Repr

/-- A pending outcome; `own` marks the COMPLETE that R132 keeps behind a BT3, which is not pulsed (R139). -/
structure PendingOutcome where
  outcome : RegOutcome
  own : Bool
deriving DecidableEq, Repr

/-- A receiver context (07, The Receiver). Its end-received mark is that of the trunk's receive store (R148).
`heldCeased` says that the signal held in HELD has ceased (R141). -/
structure ToneReceiver where
  phase : ToneReceivePhase
  pending : Option PendingOutcome
  categoryAsked : Bool
  complete : Bool
  heldCeased : Bool
  timer : Option ToneTimer
deriving DecidableEq, Repr

/-- The interlocked tone engine's context of a trunk (R121). The signal its unit generates is the unit's `generation` (log
entry 17). DESIGN CHOICE, unsafe, log entry 29: the signal last recognised from the far end is the unit's
`recognition.recognised`, which does not outlive its cessation. -/
inductive ToneContext where
  | sender (c : ToneSender)
  | receiver (c : ToneReceiver)
deriving DecidableEq, Repr

/-! ### Digit stores and standing (08) -/

/-- A receive store (R148). -/
structure ReceiveStore where
  digits : List Digit := []
  category : Option Category := none
  endReceived : Bool := false
deriving DecidableEq, Repr

/-- A send store (R149). -/
structure SendStore where
  digits : List Digit := []
  endFlag : Bool := false
  pos : Nat := 1
deriving DecidableEq, Repr

/-- A trunk's standing in number analysis (R157). -/
inductive Standing where
  | undecided
  | openNumber
  | complete
  | refused
deriving DecidableEq, Repr

/-! ### Call records (09) -/

/-- The direction of a call (R168). -/
inductive Direction where
  | outgoing
  | incoming
deriving DecidableEq, Repr

/-- An open call record (R168). Its release time and cause are set at closing (`ClosedRecord`). -/
structure CallRecord where
  ref : CallRef
  trunk : TrunkNo
  direction : Direction
  category : Option Category
  seizeTime : Stamp
  ackTime : Option Stamp := none
  answerTime : Option Stamp := none
  answerCount : Nat := 0
  digits : List Digit := []
  conversation : Nat := 0
  occupancy : Nat := 0
deriving DecidableEq, Repr

/-- A closed call record, as the RELEASED report carries it (R174). -/
structure ClosedRecord where
  record : CallRecord
  releaseTime : Stamp
  cause : Cause
deriving DecidableEq, Repr

/-! ### The trunk record -/

/-- Everything the blocks of the unit keep for one trunk (R30, R34, R14, R73, R78, R121, R148, R149, R157, R159, R168),
at its reset values (R17, R33, R34, R148, R149). -/
structure Trunk where
  role : Role := .unequipped
  profile : ProfileNo := 0
  group : GroupNo := 0
  glare : GlareRole := .yield
  localBlock : Bool := false
  remoteBlock : Bool := false
  state : TrunkState := .unequipped
  cause : Option Cause := none
  sentCode : LineCode := 7
  timer : Option SupervisionTimer := none
  unit : Option HeldUnit := none
  link : Option LinkEnd := none
  linkRecord : Option LinkRecord := none
  callRef : Option CallRef := none
  record : Option CallRecord := none
  lcr : LineReceiver := {}
  decadic : Option DecadicContext := none
  tone : Option ToneContext := none
  received : ReceiveStore := {}
  send : SendStore := {}
  standing : Option Standing := none
deriving DecidableEq, Repr

/-! ### Tone units and the pool (05, 06) -/

/-- The two state values of a resonator (R107). -/
structure Resonator where
  s1 : Int := 0
  s2 : Int := 0
deriving DecidableEq, Repr

/-- A block of samples that has ended and waits for its tone block event (R108). -/
structure EndedBlock where
  bank : Vector Resonator 10
  energy : Nat
deriving DecidableEq, Repr

/-- The previous decision of a recognition record (R113). -/
inductive PreviousDecision where
  | cleared
  | decidedNone
  | decided (sig : ToneSignal)
deriving DecidableEq, Repr

/-- A recognition record (06, Recognition and Cessation). -/
structure Recognition where
  recognised : Option ToneSignal := none
  previous : PreviousDecision := .cleared
  count : Nat := 0
deriving DecidableEq, Repr

/-- A tone signal being generated, with its amplitude per tone and its generation count (R116). -/
structure Generation where
  sig : ToneSignal
  amplitude : Nat
  n : Nat
deriving DecidableEq, Repr

/-- The status of a tone unit, with the fields that go with it (R88). -/
inductive UnitStatus where
  | free
  | signalling (t : TrunkNo) (role : UnitRole)
  | measuring (t : TrunkNo) (asked done : Nat)
deriving DecidableEq, Repr

/-- A tone unit's record (R88), its resonator bank and block energy (R107, R108), its recognition record (R113), the
signal it generates (R116) and the sums of a measurement (R118). -/
structure ToneUnit where
  status : UnitStatus := .free
  pos : Nat := 0
  bank : Vector Resonator 10 := Vector.replicate 10 {}
  energy : Nat := 0
  ended : Option EndedBlock := none
  recognition : Recognition := {}
  generation : Option Generation := none
  energySum : Nat := 0
  powerSums : Vector Nat 10 := Vector.replicate 10 0
deriving DecidableEq, Repr

/-- An entry of the call wait queue (R90). -/
structure CallWait where
  trunk : TrunkNo
  role : UnitRole
  left : Nat
deriving DecidableEq, Repr

/-- A request of the test wait queue (R96). -/
structure TestWait where
  trunk : TrunkNo
  blocks : Nat
  left : Nat
deriving DecidableEq, Repr

/-! ### The analysis table (08) -/

/-- What an analysis entry decides (R152). -/
inductive AnalysisOutcome where
  | fixed
  | openNumber
  | refuse
deriving DecidableEq, Repr

/-- An analysis table entry at its reset values (R152, R153). A position of `none` is ANY; positions beyond the
pattern length are stored and take no part. DESIGN CHOICE, unsafe, log entry 20: positions 2 to 6 are reset to ANY. -/
structure AnalysisEntry where
  valid : Bool := false
  groups : BitVec 8 := 0
  patternLength : Nat := 1
  pattern : Vector (Option Digit) 6 := Vector.replicate 6 none
  outcome : AnalysisOutcome := .refuse
  length : Nat := 1
deriving DecidableEq, Repr

/-! ### Traffic counters (09) -/

/-- The traffic counter set of a group (R176). -/
structure Traffic where
  outAttempts : Nat := 0
  outAnswered : Nat := 0
  inSeizures : Nat := 0
  inAnswered : Nat := 0
  failures : Nat := 0
  occupancy : Nat := 0
deriving DecidableEq, Repr

/-! ### Time base and highway interface (01) -/

/-- The time source (R3). -/
inductive TimeSource where
  | highway
  | crystal
deriving DecidableEq, Repr

/-- The time base (R2, R3, R4). `frameDiv` and `tickDiv` count millisecond events; `frameDue` and `tickDue` say that the
event of the divider has been made and waits to be taken. -/
structure TimeBase where
  counter : Stamp := 0
  source : TimeSource := .crystal
  fsPresent : Bool := false
  frameDiv : Nat := 0
  tickDiv : Nat := 0
  frameDue : Bool := false
  tickDue : Bool := false
deriving DecidableEq, Repr

/-- The signalling alignment state. -/
inductive Alignment where
  | searching
  | aligned
  | hold
deriving DecidableEq, Repr

/-- The hold limit timer: the millisecond events spent in HOLD and those still needed (R12). -/
structure HoldTimer where
  spent : Nat
  left : Nat
deriving DecidableEq, Repr

/-- The highway interface (R7 to R13). -/
structure Highway where
  alignment : Alignment := .searching
  trial : Bool := false
  correct : Nat := 0
  wrong : Nat := 0
  holdStart : Option Stamp := none
  holdTimer : Option HoldTimer := none
  holdLimit : Nat := 20
deriving DecidableEq, Repr

/-! ### Reports (11) -/

/-- The cause of a STARTUP report (R193, R200). -/
inductive ResetCause where
  | power
  | pin
  | command
deriving DecidableEq, Repr

/-- The cause of a HOLD-START report (R10, R193). -/
inductive HoldCause where
  | alignment
  | fsLoss
deriving DecidableEq, Repr

/-- The status of a TEST-RESULT report (R98, R193). -/
inductive TestStatus where
  | done
  | abortedHold
  | noUnit
  | abortedSeized
deriving DecidableEq, Repr

/-- The three figures of a TEST-RESULT report (R98). -/
structure TestFigures where
  rms : Nat
  strongest : Nat
  estimate : Nat
deriving DecidableEq, Repr

/-- How a relay link ended (R166). -/
inductive LinkEnding where
  | outlet
  | inlet
  | overflow
  | holdLimit
deriving DecidableEq, Repr

/-- The detail of a LINE-ANOMALY report (R36, R82). -/
inductive AnomalyDetail where
  | unexpectedCode
  | digitError
deriving DecidableEq, Repr

/-- The kinds of report with the fields of each (R193). -/
inductive ReportBody where
  | startup (cause : ResetCause) (revision : Nat) (address : BitVec 5) (valid : Bool)
  | seizedIn (ref : Option CallRef)
  | acknowledged (ref : Option CallRef)
  | registerEnd (ref : Option CallRef) (result : RegResult) (cause : Option Cause)
  | digitsComplete (ref : Option CallRef) (category : Option Category) (digits : List Digit)
  | answer (ref : Option CallRef)
  | clearBack (ref : Option CallRef)
  | reAnswer (ref : Option CallRef)
  | clearForward (ref : Option CallRef)
  | released (closed : ClosedRecord)
  | glare (ref : Option CallRef)
  | trunkFailed (cause : Cause) (ref : Option CallRef)
  | remoteBlock
  | remoteUnblock
  | testResult (status : TestStatus) (done : Nat) (figures : Option TestFigures)
  | holdStart (cause : HoldCause)
  | holdEnd (duration : Stamp)
  | linkEnd (outlet : TrunkNo) (ending : LinkEnding) (outcome : Option RegResult) (relayed : Nat)
  | lineAnomaly (code : LineCode) (detail : AnomalyDetail)
  | digitProgress (category : Option Category) (endReceived : Bool) (digits : List Digit)
  | poolCongestion (length : Nat)
deriving DecidableEq, Repr

/-- An entry of the report queue (R192). -/
structure ReportEntry where
  body : ReportBody
  trunk : Option TrunkNo
  stamp : Stamp
  repeats : Nat := 0
  age : Nat := 0
deriving DecidableEq, Repr

/-- The report queue, oldest first, its loss flags, the settings of SET-REPORTING and the ATTN pin, `true` where the
unit pulls it low (R192, R195, R196). -/
structure ReportQueue where
  entries : List ReportEntry := []
  sequenceLoss : Bool := false
  conditionLoss : Bool := false
  threshold : Nat := 4
  holdTime : Nat := 10
  attn : Bool := false
deriving DecidableEq, Repr

/-- The kinds of fault (R198). -/
inductive FaultKind where
  | holdStart
  | holdLimit
  | trunkFailed
  | reportLoss
deriving DecidableEq, Repr

/-- A captured fault (R198). -/
structure CapturedFault where
  kind : FaultKind
  trunk : Option TrunkNo
  time : Stamp
deriving DecidableEq, Repr

/-- The fault capture record (R198). -/
structure FaultRecord where
  held : Option CapturedFault := none
  further : Bool := false
deriving DecidableEq, Repr

/-! ### The control link (10) -/

/-- The collection state of frame assembly (R182). -/
inductive Collection where
  | idle
  | own
  | broadcast
deriving DecidableEq, Repr

/-- The eleven bits of a character on the link in the order in which they are sent, the first in the least significant
place: the start bit, eight data bits, the marker and the stop bit (R178). -/
abbrev CharBits := BitVec 11

/-- The search state of the receiver (R180). In RECEIVING: the samples of the character taken so far, how many of the
samples 7, 8 and 9 of the present bit stood at 1, and the bits voted so far. -/
inductive SearchState where
  | searching
  | receiving (taken ones : Nat) (bits : CharBits)
deriving DecidableEq, Repr

/-- The receiver of CMD (R180): its search state, and the level of the last sample. DEDUCED, unsafe, log entry 14: after
a power-on or pin reset the line is taken as at rest, at 1 (R178). -/
structure LinkReceiver where
  search : SearchState := .searching
  level : Bool := true
deriving DecidableEq, Repr

/-- The control link block: the straps as read (R179, R181), the receiver (R180), frame assembly (R182), and the held
command with the characters of its reply as they are sent on RPL, header first (R178, R185, R186). `reply` is present
exactly while the unit holds a command. -/
structure ControlLink where
  address : BitVec 5
  addressValid : Bool
  rate : BitVec 3
  receiver : LinkReceiver := {}
  collection : Collection := .idle
  buffer : List Byte := []
  errored : Bool := false
  reply : Option (List CharBits) := none
  resetPending : Bool := false
  overrun : Bool := false
deriving DecidableEq, Repr

/-! ### The unit -/

/-- The state of the block, and the commands that wait for it, first in, first out. -/
structure State where
  pending : List Instr
  tmb : TimeBase
  hwi : Highway
  profiles : Vector Profile 4
  trunks : Vector Trunk 32
  units : Vector ToneUnit 8
  callQueue : List CallWait
  testQueue : List TestWait
  analysis : Vector AnalysisEntry 32
  sequence : CallRef
  traffic : Vector Traffic 8
  clk : ControlLink
  rqa : ReportQueue
  fault : FaultRecord
  /-- The last signalling frame sent on SGTX (R1); none before the first. -/
  sgtx : Option SigFrame
  /-- The last samples sent on LTX (R18); none before the first. -/
  ltx : Option (Vector Byte 32)
deriving DecidableEq, Repr

/-- R192, R200: the report queue after a reset, with the STARTUP report alone. -/
def ReportQueue.afterReset (cause : ResetCause) (time : Stamp) (address : BitVec 5) (valid : Bool) : ReportQueue :=
  { entries := [{ body := .startup cause Config.revision address valid, trunk := none, stamp := time }] }

/-- The state that a reset leaves (R13, R17, R29, R33, R34, R88, R148, R149, R152, R168, R170, R176, R192, R198,
R200), given the time base and the control link as they then stand, the last output of SGTX and LTX, and the commands
that wait. DESIGN CHOICE, safe, log entry 19: the waiting commands stay. -/
def State.afterReset (cause : ResetCause) (tmb : TimeBase) (clk : ControlLink) (sgtx : Option SigFrame)
    (ltx : Option (Vector Byte 32)) (pending : List Instr) : State where
  pending := pending
  tmb := tmb
  hwi := {}
  profiles := Vector.replicate 4 {}
  trunks := Vector.replicate 32 {}
  units := Vector.replicate 8 {}
  callQueue := []
  testQueue := []
  analysis := Vector.replicate 32 {}
  sequence := 0
  traffic := Vector.replicate 8 {}
  clk := clk
  rqa := .afterReset cause tmb.counter clk.address clk.addressValid
  fault := {}
  sgtx := sgtx
  ltx := ltx

/-- R179, R181, R182, R185: the control link after a power-on or pin reset that reads these straps. -/
def ControlLink.ofStraps (straps : Straps) : ControlLink :=
  { address := strapAddress straps, addressValid := Machine.addressValid straps, rate := straps.rate }

/-- The state that a power-on or pin reset with these straps leaves (R3, R4, R179, R181, R200): the time base at its
reset values as well, and no output yet. -/
def State.afterHardReset (cause : ResetCause) (straps : Straps) (pending : List Instr) : State :=
  .afterReset cause {} (.ofStraps straps) none none pending

/-- The block right after power-on with the straps of `Config.resetStraps`; no command waits. -/
def State.reset : State := .afterHardReset .power Config.resetStraps []

end Sys2Proof.Machine
end

