-- ==== Sys2Proof/Machine/Flags.lean ====
section
/-! DEFINITION. What the unit shows on its own account: the ATTN and FAULT pins (R195, R198) and the classes of report
kinds (R192). -/

namespace Sys2Proof.Machine

/-- R195: the condition under which the unit pulls ATTN low. The hold time is in units of 10 ms (R196). -/
def ReportQueue.wantsAttention (q : ReportQueue) : Bool :=
  match q.entries with
  | [] => false
  | oldest :: rest => q.threshold ≤ rest.length + 1 || 10 * q.holdTime ≤ oldest.age

/-- R195: ATTN judged afresh. -/
def ReportQueue.judged (q : ReportQueue) : ReportQueue := { q with attn := q.wantsAttention }

/-- R198: the FAULT pin is asserted while the capture record is occupied or the unit address is invalid. -/
def State.faultPin (s : State) : Bool := s.fault.held.isSome || !s.clk.addressValid

/-- R192: the condition kinds. -/
def ReportBody.isCondition : ReportBody → Bool
  | .lineAnomaly _ _ => true
  | .digitProgress _ _ _ => true
  | .poolCongestion _ => true
  | _ => false

/-- R190: the code of a report's kind. -/
def ReportBody.kindCode : ReportBody → Nat
  | .startup _ _ _ _ => 0x01
  | .seizedIn _ => 0x02
  | .acknowledged _ => 0x03
  | .registerEnd _ _ _ => 0x04
  | .digitsComplete _ _ _ => 0x05
  | .answer _ => 0x06
  | .clearBack _ => 0x07
  | .reAnswer _ => 0x08
  | .clearForward _ => 0x09
  | .released _ => 0x0A
  | .glare _ => 0x0B
  | .trunkFailed _ _ => 0x0C
  | .remoteBlock => 0x0D
  | .remoteUnblock => 0x0E
  | .testResult _ _ _ => 0x0F
  | .holdStart _ => 0x10
  | .holdEnd _ => 0x11
  | .linkEnd _ _ _ _ => 0x12
  | .lineAnomaly _ _ => 0x40
  | .digitProgress _ _ _ => 0x41
  | .poolCongestion _ => 0x42

/-- R5, R10: suspension of the trunk timers is in force exactly while the signalling alignment state is HOLD. -/
def State.inHold (s : State) : Bool := s.hwi.alignment == .hold

end Sys2Proof.Machine
end

