-- ==== Sys2Proof/Machine/Ops.lean ====
section
/-! DEFINITION. The named operations over the state that every block of the unit uses: trunk records and units,
reports and captures (R194, R198), call records (R169 to R174) and traffic counters (R176). -/

namespace Sys2Proof.Machine

/-! ### Trunk records, profiles and units -/

/-- The record of a trunk. -/
def State.trunk (s : State) (t : TrunkNo) : Trunk := s.trunks.get t

/-- Change the record of a trunk. -/
def State.mapTrunk (s : State) (t : TrunkNo) (f : Trunk → Trunk) : State :=
  { s with trunks := s.trunks.set t (f (s.trunk t)) }

/-- The profile that a trunk names (R30). -/
def State.profileOf (s : State) (t : TrunkNo) : Profile := s.profiles.get (s.trunk t).profile

/-- The record of a tone unit. -/
def State.unit (s : State) (u : UnitNo) : ToneUnit := s.units.get u

/-- Change the record of a tone unit. -/
def State.mapUnit (s : State) (u : UnitNo) (f : ToneUnit → ToneUnit) : State :=
  { s with units := s.units.set u (f (s.unit u)) }

/-- Do something for every trunk, T0 first. -/
def State.forTrunks (s : State) (f : State → TrunkNo → State) : State := (List.finRange 32).foldl f s

/-- Do something for every tone unit, U0 first. -/
def State.forUnits (s : State) (f : State → UnitNo → State) : State := (List.finRange 8).foldl f s

/-! ### Fault captures and reports -/

/-- R198: a capture fills an empty record, and otherwise sets the further-faults flag. -/
def State.capture (s : State) (kind : FaultKind) (trunk : Option TrunkNo) : State :=
  match s.fault.held with
  | none => { s with fault := { held := some { kind := kind, trunk := trunk, time := s.tmb.counter }, further := false } }
  | some _ => { s with fault := { s.fault with further := true } }

/-- R194: a queued entry that a condition report of this kind and trunk is merged into. -/
def ReportEntry.takes (e : ReportEntry) (trunk : Option TrunkNo) (body : ReportBody) : Bool :=
  e.body.kindCode == body.kindCode && e.trunk == trunk

/-- R194: the entry after a merge: its place and age are kept. -/
def ReportEntry.merge (e : ReportEntry) (body : ReportBody) (stamp : Stamp) : ReportEntry :=
  { e with body := body, stamp := stamp, repeats := min 255 (e.repeats + 1) }

/-- Replace the report queue and judge ATTN, as at every change of the queue (R195). -/
def State.withReports (s : State) (q : ReportQueue) : State := { s with rqa := q.judged }

/-- The queue with a new entry at its tail, with arrival age 0 and repeat count 0 (R192, R194). -/
def ReportQueue.join (q : ReportQueue) (trunk : Option TrunkNo) (body : ReportBody) (stamp : Stamp) : ReportQueue :=
  { q with entries := q.entries ++ [{ body := body, trunk := trunk, stamp := stamp }] }

/-- R194: the queue after a condition report. -/
def ReportQueue.admitCondition (q : ReportQueue) (trunk : Option TrunkNo) (body : ReportBody) (stamp : Stamp) :
    ReportQueue :=
  if q.entries.any (·.takes trunk body) then
    { q with entries := q.entries.map fun e => if e.takes trunk body then e.merge body stamp else e }
  else if q.entries.length < Config.conditionRoom then q.join trunk body stamp
  else { q with conditionLoss := true }

/-- R194: the queue after a sequenced report. -/
def ReportQueue.admitSequenced (q : ReportQueue) (trunk : Option TrunkNo) (body : ReportBody) (stamp : Stamp) :
    ReportQueue :=
  if q.entries.length < Config.reportRoom then q.join trunk body stamp else { q with sequenceLoss := true }

/-- R194: submit a report. Its time stamp is the counter value at the event, which is the counter's value now (R192).
A dropped sequenced report makes a REPORT-LOSS capture at the drop. -/
def State.submit (s : State) (trunk : Option TrunkNo) (body : ReportBody) : State :=
  if body.isCondition then s.withReports (s.rqa.admitCondition trunk body s.tmb.counter)
  else if s.rqa.entries.length < Config.reportRoom then
    s.withReports (s.rqa.admitSequenced trunk body s.tmb.counter)
  else (s.withReports (s.rqa.admitSequenced trunk body s.tmb.counter)).capture .reportLoss trunk

/-! ### Traffic counters -/

/-- R176: a counter stops at its highest value. -/
def countUp (n by_ : Nat) : Nat := min Config.counterMax (n + by_)

/-- Count for the group of a trunk (R176). -/
def State.countFor (s : State) (t : TrunkNo) (f : Traffic → Traffic) : State :=
  { s with traffic := s.traffic.set (s.trunk t).group (f (s.traffic.get (s.trunk t).group)) }

/-- R176 -/
def Traffic.addAttempt (c : Traffic) : Traffic := { c with outAttempts := countUp c.outAttempts 1 }
/-- R176 -/
def Traffic.addOutAnswer (c : Traffic) : Traffic := { c with outAnswered := countUp c.outAnswered 1 }
/-- R176 -/
def Traffic.addSeizure (c : Traffic) : Traffic := { c with inSeizures := countUp c.inSeizures 1 }
/-- R176 -/
def Traffic.addInAnswer (c : Traffic) : Traffic := { c with inAnswered := countUp c.inAnswered 1 }
/-- R176 -/
def Traffic.addFailure (c : Traffic) : Traffic := { c with failures := countUp c.failures 1 }

/-! ### Call records -/

/-- Change a trunk's open call record, where it holds one. -/
def State.mapRecord (s : State) (t : TrunkNo) (f : CallRecord → CallRecord) : State :=
  s.mapTrunk t fun r => { r with record := r.record.map f }

/-- R169: open a call record for a trunk, with the counter's value as seize time. -/
def State.openRecord (s : State) (t : TrunkNo) (direction : Direction) (ref : CallRef) (category : Option Category) :
    State :=
  s.mapTrunk t fun r =>
    { r with
      callRef := some ref
      record := some { ref := ref, trunk := t, direction := direction, category := category, seizeTime := s.tmb.counter } }

/-- R171: the answer count stops at 255. -/
def CallRecord.countAnswer (r : CallRecord) : CallRecord := { r with answerCount := min 255 (r.answerCount + 1) }

/-- R171: the first answer, with the counter's value; a first answer time that is set is not replaced. -/
def State.stampAnswer (s : State) (t : TrunkNo) : State :=
  s.mapRecord t fun r =>
    CallRecord.countAnswer { r with answerTime := some (r.answerTime.getD s.tmb.counter) }

/-- R172: enter a digit in the call record. -/
def State.recordDigit (s : State) (t : TrunkNo) (d : Digit) : State :=
  s.mapRecord t fun r => { r with digits := r.digits ++ [d] }

/-- R174: close a trunk's record with a cause: a RELEASED report, and no open record. -/
def State.closeRecord (s : State) (t : TrunkNo) (cause : Cause) : State :=
  match (s.trunk t).record with
  | none => s
  | some r =>
    (s.mapTrunk t fun k => { k with record := none }).submit (some t)
      (.released { record := r, releaseTime := s.tmb.counter, cause := cause })

/-! ### Supervision timers, causes and the LCR's filter mode -/

/-- Start a supervision timer for a time in ms (R34). -/
def State.startTimer (s : State) (t : TrunkNo) (kind : SupervisionKind) (ms : Nat) : State :=
  s.mapTrunk t fun r => { r with timer := some { kind := kind, left := ms } }

/-- Discard a trunk's supervision timer (R34). -/
def State.dropTimer (s : State) (t : TrunkNo) : State := s.mapTrunk t fun r => { r with timer := none }

/-- R34: the first rule of a call that gives a cause sets it. -/
def State.giveCause (s : State) (t : TrunkNo) (cause : Cause) : State :=
  s.mapTrunk t fun r => { r with cause := r.cause.orElse fun _ => some cause }

/-- Set a trunk's filter mode; the candidate is kept (R15). -/
def State.setFilter (s : State) (t : TrunkNo) (mode : FilterMode) : State :=
  s.mapTrunk t fun r => { r with lcr := { r.lcr with mode := mode } }

/-- R190: the outcome field that goes with a rejection's cause (R46, R58). -/
def Cause.result : Cause → RegResult
  | .unobtainable => .unobtainable
  | _ => .congestion

/-- R5: a running timer with nothing left has expired. -/
def timerDue (left : Option Nat) : Bool := left == some 0

end Sys2Proof.Machine
end

