-- ==== Sys2Proof/Machine/Operands.lean ====
section
/-! DEFINITION. How a command's payload is read: numbers, enumerated values and the records of SET-PROFILE,
SET-ANALYSIS and SEIZE (R21, R22, R31, R153, R189). A multi-byte number is most significant byte first. -/

namespace Sys2Proof.Machine

/-! ### Numbers and numbered things -/

/-- The number that bytes spell, most significant byte first. -/
def natOf (bs : List Byte) : Nat := bs.foldl (fun n b => n * 256 + b.toNat) 0

/-- A byte of a payload by its offset; the layouts are read only where the byte stands. -/
def byteAt (p : List Byte) (k : Nat) : Nat := (p.getD k 0).toNat

/-- A trunk number, 0 to 31. -/
def trunkOf (n : Nat) : Option TrunkNo := if h : n < 32 then some ⟨n, h⟩ else none
/-- A profile number, 0 to 3. -/
def profileNoOf (n : Nat) : Option ProfileNo := if h : n < 4 then some ⟨n, h⟩ else none
/-- A group number, 0 to 7. -/
def groupOf (n : Nat) : Option GroupNo := if h : n < 8 then some ⟨n, h⟩ else none
/-- A digit, 0 to 9. -/
def digitOf (n : Nat) : Option Digit := if h : n < 10 then some ⟨n, h⟩ else none
/-- A flag byte, 0 or 1. -/
def flagOf : Nat → Option Bool
  | 0 => some false
  | 1 => some true
  | _ => none
/-- A send code, 0 to 7 (R21). -/
def codeOf (n : Nat) : Option LineCode := if n < 8 then some (BitVec.ofNat 3 n) else none

/-- A list of digits, one per byte. -/
def digitsOf (bs : List Byte) : Option (List Digit) := bs.mapM fun b => digitOf b.toNat

/-! ### Enumerated values -/

/-- R22 -/
def methodOf : Nat → Option RegisterMethod
  | 0 => some .noRegister
  | 1 => some .decadic
  | 2 => some .tone
  | _ => none
/-- R22 -/
def modeOf : Nat → Option AnalysisMode
  | 0 => some .host
  | 1 => some .table
  | _ => none
/-- R22 -/
def defaultOutcomeOf : Nat → Option DefaultOutcome
  | 0 => some .openNumber
  | 1 => some .refuse
  | _ => none
/-- R22 -/
def policyOf : Nat → Option CategoryPolicy
  | 0 => some .never
  | 1 => some .afterFirstDigit
  | _ => none
/-- 02, SET-TRUNK -/
def roleOf : Nat → Option Role
  | 0 => some .unequipped
  | 1 => some .outgoing
  | 2 => some .incoming
  | 3 => some .bothWay
  | _ => none
/-- 02, SET-TRUNK -/
def glareOf : Nat → Option GlareRole
  | 0 => some .yield
  | 1 => some .priority
  | _ => none
/-- R189 -/
def categoryOf : Nat → Option Category
  | 0 => some .ordinary
  | 1 => some .priority
  | 2 => some .test
  | _ => none
/-- R153 -/
def analysisOutcomeOf : Nat → Option AnalysisOutcome
  | 0 => some .fixed
  | 1 => some .openNumber
  | 2 => some .refuse
  | _ => none
/-- 08, ACCEPT-DIGITS: the outcome that the host's judgement hands on (R151). -/
def acceptOutcomeOf : Nat → Option RegOutcome
  | 0 => some .complete
  | 1 => some (.reject .congestion)
  | 2 => some (.reject .unobtainable)
  | _ => none

/-! ### The profile record -/

/-- A numeric setting of the table of R22: its bytes and its range. -/
structure NumericRow where
  bytes : Nat
  low : Nat
  high : Nat
deriving DecidableEq, Repr

/-- The twenty-five numeric settings, in the order of the table of R22. -/
def numericRows : List NumericRow :=
  [⟨1, 2, 50⟩, ⟨1, 1, 10⟩, ⟨2, 100, 5000⟩, ⟨2, 100, 10000⟩, ⟨2, 100, 2000⟩, ⟨1, 0, 255⟩, ⟨1, 0, 255⟩, ⟨1, 40, 80⟩,
   ⟨1, 20, 60⟩, ⟨2, 300, 1000⟩, ⟨1, 20, 60⟩, ⟨1, 60, 120⟩, ⟨1, 10, 60⟩, ⟨2, 100, 500⟩, ⟨2, 150, 600⟩, ⟨1, 1, 60⟩,
   ⟨1, 1, 60⟩, ⟨1, 1, 20⟩, ⟨1, 1, 60⟩, ⟨2, 100, 10000⟩, ⟨2, 16, 1024⟩, ⟨2, 200, 4000⟩, ⟨1, 1, 25⟩, ⟨2, 100, 300⟩,
   ⟨1, 1, 10⟩]

/-- Read the numbers of a table of settings from the bytes that carry them. -/
def readNumbers : List NumericRow → List Byte → List Nat
  | [], _ => []
  | r :: rs, bs => natOf (bs.take r.bytes) :: readNumbers rs (bs.drop r.bytes)

/-- R25: the nearer limit in place of a value outside the range. -/
def NumericRow.clamp (r : NumericRow) (n : Nat) : Nat := min r.high (max r.low n)

/-- R25: all settings clamped. -/
def clampNumbers (rows : List NumericRow) (ns : List Nat) : List Nat := List.zipWith NumericRow.clamp rows ns

/-- The numeric settings of a profile replaced by a list in the order of the table of R22. -/
def Profile.withNumbers (p : Profile) (ns : List Nat) : Profile :=
  { p with
    linePersistence := ns.getD 0 0
    pulsePersistence := ns.getD 1 0
    ackTimer := ns.getD 2 0
    releaseTimer := ns.getD 3 0
    guardTimer := ns.getD 4 0
    answerWait := ns.getD 5 0
    clearBackTimer := ns.getD 6 0
    sendBreak := ns.getD 7 0
    sendMake := ns.getD 8 0
    sendPause := ns.getD 9 0
    breakMin := ns.getD 10 0
    breakMax := ns.getD 11 0
    makeMin := ns.getD 12 0
    digitEnd := ns.getD 13 0
    clearRecognition := ns.getD 14 0
    firstDigitWait := ns.getD 15 0
    interDigitWait := ns.getD 16 0
    openNumberWait := ns.getD 17 0
    senderDigitWait := ns.getD 18 0
    unitWait := ns.getD 19 0
    minAmplitude := ns.getD 20 0
    sendAmplitude := ns.getD 21 0
    interlock := ns.getD 22 0
    pulseDuration := ns.getD 23 0
    hostDecision := ns.getD 24 0 }

/-- The numeric settings of a profile in the order of the table of R22. -/
def Profile.numbers (p : Profile) : List Nat :=
  [p.linePersistence, p.pulsePersistence, p.ackTimer, p.releaseTimer, p.guardTimer, p.answerWait, p.clearBackTimer,
   p.sendBreak, p.sendMake, p.sendPause, p.breakMin, p.breakMax, p.makeMin, p.digitEnd, p.clearRecognition,
   p.firstDigitWait, p.interDigitWait, p.openNumberWait, p.senderDigitWait, p.unitWait, p.minAmplitude,
   p.sendAmplitude, p.interlock, p.pulseDuration, p.hostDecision]

/-- The nine send codes in the order of R21, each 0 to 7. -/
def readCodes (p : List Byte) : Option SendCodes := do
  return { fIdle := ← codeOf (byteAt p 0), fSeize := ← codeOf (byteAt p 1), fClear := ← codeOf (byteAt p 2),
           bIdle := ← codeOf (byteAt p 3), bAck := ← codeOf (byteAt p 4), bAnswer := ← codeOf (byteAt p 5),
           bClearback := ← codeOf (byteAt p 6), bBlock := ← codeOf (byteAt p 7), bGuard := ← codeOf (byteAt p 8) }

/-- The 49-byte profile record with its numeric settings as carried (R21, R22); `none` where a send code or an
enumerated setting is outside its values. -/
def readProfile (p : List Byte) : Option Profile := do
  let codes ← readCodes p
  let method ← methodOf (byteAt p 9)
  let mode ← modeOf (byteAt p 10)
  let defaultOutcome ← defaultOutcomeOf (byteAt p 11)
  let categoryPolicy ← policyOf (byteAt p 12)
  let holdCount ← flagOf (byteAt p 13)
  return Profile.withNumbers
    { codes := codes, method := method, mode := mode, defaultOutcome := defaultOutcome,
      categoryPolicy := categoryPolicy, holdCount := holdCount } (readNumbers numericRows (p.drop 14))

/-- R25: the profile as stored. -/
def Profile.clamped (p : Profile) : Profile := p.withNumbers (clampNumbers numericRows p.numbers)

/-- R23: the code validation of a profile. -/
def SendCodes.valid (c : SendCodes) : Bool :=
  c.fIdle != c.fSeize && c.fSeize != c.fClear &&
  c.bIdle != c.bAck && c.bIdle != c.bAnswer && c.bIdle != c.bBlock &&
  c.bAck != c.bAnswer && c.bAck != c.bBlock && c.bAnswer != c.bBlock &&
  c.bClearback != c.bAnswer && c.bGuard != c.bIdle

/-- R24: the both-way conditions. -/
def SendCodes.validBothWay (c : SendCodes) : Bool :=
  c.fIdle == c.bIdle && c.fSeize != c.bIdle && c.fSeize != c.bAck && c.fSeize != c.bBlock

/-! ### Analysis entries -/

/-- A pattern position: a digit, or 10 for ANY (R153). -/
def positionOf (n : Nat) : Option (Option Digit) := if n = 10 then some none else (digitOf n).map some

/-- R153: the entry fields of a SET-ANALYSIS payload, after the index; `none` where a field is outside its values. -/
def readAnalysis (p : List Byte) : Option AnalysisEntry := do
  let valid ← flagOf (byteAt p 1)
  let len := byteAt p 3
  let p0 ← positionOf (byteAt p 4)
  let p1 ← positionOf (byteAt p 5)
  let p2 ← positionOf (byteAt p 6)
  let p3 ← positionOf (byteAt p 7)
  let p4 ← positionOf (byteAt p 8)
  let p5 ← positionOf (byteAt p 9)
  let outcome ← analysisOutcomeOf (byteAt p 10)
  let total := byteAt p 11
  if 1 ≤ len && len ≤ 6 && 1 ≤ total && total ≤ 24 then
    return { valid := valid, groups := BitVec.ofNat 8 (byteAt p 2), patternLength := len,
             pattern := #v[p0, p1, p2, p3, p4, p5], outcome := outcome, length := total }
  else none

/-! ### SEIZE -/

/-- The relay part of a SEIZE as carried (R189); its values are judged by R160. -/
structure RelayPart where
  inlet : Nat
  delete : Nat
  insert : List Byte
deriving DecidableEq, Repr

/-- The fields of a SEIZE that the second check of R43 has passed. -/
structure SeizeFields where
  trunk : TrunkNo
  ref : CallRef
  category : Category
  endFlag : Bool
  digits : List Digit
  relay : Option RelayPart
deriving DecidableEq, Repr

/-- R189: a SEIZE payload is well formed. -/
def seizeWellFormed (p : List Byte) : Bool :=
  let n := byteAt p 5
  7 ≤ p.length && 7 + n ≤ p.length &&
    if byteAt p (6 + n) = 0 then p.length == 7 + n
    else 10 + n ≤ p.length && p.length == 10 + n + byteAt p (9 + n)

/-- R43, second check, with R189: the fields of a well-formed payload, or `none` where one is outside its values. -/
def readSeize (p : List Byte) : Option SeizeFields := do
  let n := byteAt p 5
  let t ← trunkOf (byteAt p 0)
  let category ← categoryOf (byteAt p 3)
  let endFlag ← flagOf (byteAt p 4)
  let digits ← digitsOf ((p.drop 6).take n)
  let relayed ← flagOf (byteAt p (6 + n))
  if n ≤ Config.storeRoom then
    return { trunk := t, ref := BitVec.ofNat 16 (natOf ((p.drop 1).take 2)), category := category, endFlag := endFlag,
             digits := digits,
             relay := if relayed then
                 some { inlet := byteAt p (7 + n), delete := byteAt p (8 + n), insert := p.drop (10 + n) }
               else none }
  else none

end Sys2Proof.Machine
end

