-- ==== Sys2Proof/Machine/Layouts.lean ====
section
/-! DEFINITION. The byte layouts that the unit sends: replies' data, report entries (R190, R191, R193), the profile and
analysis records (R28, R154), the signalling frame (R1, R8) and the characters of the link (R178, R180). -/

namespace Sys2Proof.Machine

/-! ### Numbers and coded values -/

/-- A number in `w` bytes, most significant byte first. -/
def bytesOf : Nat → Nat → List Byte
  | 0, _ => []
  | w + 1, n => bytesOf w (n / 256) ++ [BitVec.ofNat 8 n]

/-- A one-byte value. -/
def byte (n : Nat) : Byte := BitVec.ofNat 8 n

/-- A flag byte. -/
def flagByte (b : Bool) : Byte := if b then 1 else 0

/-- An optional one-byte field: 0xFF where it is absent (R72, R193). -/
def optByte (o : Option Nat) : Byte := byte (o.getD 0xFF)

/-- An optional two-byte field: 0xFFFF where it is absent (R193). -/
def optPair (o : Option Nat) : List Byte := bytesOf 2 (o.getD 0xFFFF)

/-- 02, SET-TRUNK -/
def Role.code : Role → Nat
  | .unequipped => 0
  | .outgoing => 1
  | .incoming => 2
  | .bothWay => 3
/-- 02, SET-TRUNK -/
def GlareRole.code : GlareRole → Nat
  | .yield => 0
  | .priority => 1
/-- R72 -/
def TrunkState.code : TrunkState → Nat
  | .unequipped => 0
  | .idle => 1
  | .localBlocked => 2
  | .remoteBlocked => 3
  | .failed => 4
  | .outSeizing => 5
  | .outSelecting => 6
  | .outWaitAnswer => 7
  | .outAnswered => 8
  | .outClearback => 9
  | .outRejected => 10
  | .outClearing => 11
  | .inSelecting => 12
  | .inWaitAnswer => 13
  | .inAnswered => 14
  | .inClearback => 15
  | .inRejected => 16
  | .inGuard => 17
/-- R190 -/
def Cause.code : Cause → Nat
  | .normal => 0
  | .ackTimeout => 1
  | .releaseTimeout => 2
  | .noAnswer => 3
  | .clearbackTimeout => 4
  | .noUnit => 5
  | .digitTimeout => 6
  | .interlockTimeout => 7
  | .protocol => 8
  | .congestion => 9
  | .unobtainable => 10
  | .holdLimit => 11
  | .inletCleared => 12
  | .overflow => 13
  | .reset => 14
/-- R190 -/
def RegResult.code : RegResult → Nat
  | .complete => 0
  | .congestion => 1
  | .unobtainable => 2
/-- R189 -/
def Category.code : Category → Nat
  | .ordinary => 0
  | .priority => 1
  | .test => 2
/-- R72 -/
def SupervisionKind.code : SupervisionKind → Nat
  | .ack => 0
  | .answerWait => 1
  | .clearBack => 2
  | .release => 3
  | .guard => 4
/-- R72, R102 -/
def UnitRole.code : UnitRole → Nat
  | .sender => 0
  | .receiver => 1
/-- R72 -/
def LinkPart.code : LinkPart → Nat
  | .inlet => 0
  | .outlet => 1
/-- R72 -/
def FilterMode.code : FilterMode → Nat
  | .line => 0
  | .pulse => 1
/-- R191 -/
def Direction.code : Direction → Nat
  | .outgoing => 0
  | .incoming => 1
/-- R22 -/
def RegisterMethod.code : RegisterMethod → Nat
  | .noRegister => 0
  | .decadic => 1
  | .tone => 2
/-- R22 -/
def AnalysisMode.code : AnalysisMode → Nat
  | .host => 0
  | .table => 1
/-- R22 -/
def DefaultOutcome.code : DefaultOutcome → Nat
  | .openNumber => 0
  | .refuse => 1
/-- R22 -/
def CategoryPolicy.code : CategoryPolicy → Nat
  | .never => 0
  | .afterFirstDigit => 1
/-- R153 -/
def AnalysisOutcome.code : AnalysisOutcome → Nat
  | .fixed => 0
  | .openNumber => 1
  | .refuse => 2
/-- R188 -/
def TimeSource.code : TimeSource → Nat
  | .highway => 0
  | .crystal => 1
/-- R188 -/
def Alignment.code : Alignment → Nat
  | .searching => 0
  | .aligned => 1
  | .hold => 2
/-- R193 -/
def ResetCause.code : ResetCause → Nat
  | .power => 0
  | .pin => 1
  | .command => 2
/-- R193 -/
def HoldCause.code : HoldCause → Nat
  | .alignment => 0
  | .fsLoss => 1
/-- R193 -/
def TestStatus.code : TestStatus → Nat
  | .done => 0
  | .abortedHold => 1
  | .noUnit => 2
  | .abortedSeized => 3
/-- R193 -/
def LinkEnding.code : LinkEnding → Nat
  | .outlet => 0
  | .inlet => 1
  | .overflow => 2
  | .holdLimit => 3
/-- R193 -/
def AnomalyDetail.code : AnomalyDetail → Nat
  | .unexpectedCode => 0
  | .digitError => 1
/-- R198 -/
def FaultKind.code : FaultKind → Nat
  | .holdStart => 0
  | .holdLimit => 1
  | .trunkFailed => 2
  | .reportLoss => 3

/-- The trunk of an optional trunk field. -/
def trunkByte (t : Option TrunkNo) : Byte := optByte (t.map Fin.val)

/-- Digits, one per byte. -/
def digitBytes (ds : List Digit) : List Byte := ds.map fun d => byte d.val

/-! ### Report entries -/

/-- R191: the fields of a RELEASED entry after its header. -/
def ClosedRecord.bytes (c : ClosedRecord) : List Byte :=
  let r := c.record
  bytesOf 2 r.ref.toNat ++
  [byte r.direction.code,
   byte ((if r.category.isSome then 1 else 0) + (if r.ackTime.isSome then 2 else 0) + (if r.answerTime.isSome then 4 else 0)),
   byte ((r.category.map Category.code).getD 0)] ++
  bytesOf 4 r.seizeTime.toNat ++ bytesOf 4 (r.ackTime.getD 0).toNat ++ bytesOf 4 (r.answerTime.getD 0).toNat ++
  [byte r.answerCount] ++ bytesOf 3 r.conversation ++ bytesOf 3 r.occupancy ++
  [byte c.cause.code, byte r.digits.length] ++ digitBytes r.digits

/-- R193: the fields of each kind after the header. -/
def ReportBody.bytes : ReportBody → List Byte
  | .startup cause revision address valid =>
    [byte cause.code, byte revision, byte address.toNat, flagByte valid]
  | .seizedIn ref => optPair (ref.map (·.toNat))
  | .acknowledged ref => optPair (ref.map (·.toNat))
  | .registerEnd ref result cause =>
    optPair (ref.map (·.toNat)) ++ [byte result.code, optByte (cause.map Cause.code)]
  | .digitsComplete ref category digits =>
    optPair (ref.map (·.toNat)) ++ [optByte (category.map Category.code), byte digits.length] ++ digitBytes digits
  | .answer ref => optPair (ref.map (·.toNat))
  | .clearBack ref => optPair (ref.map (·.toNat))
  | .reAnswer ref => optPair (ref.map (·.toNat))
  | .clearForward ref => optPair (ref.map (·.toNat))
  | .released closed => closed.bytes
  | .glare ref => optPair (ref.map (·.toNat))
  | .trunkFailed cause ref => byte cause.code :: optPair (ref.map (·.toNat))
  | .remoteBlock => []
  | .remoteUnblock => []
  | .testResult status done figures =>
    [byte status.code, byte done] ++ optPair (figures.map (·.rms)) ++ [optByte (figures.map (·.strongest))] ++
      optPair (figures.map (·.estimate))
  | .holdStart cause => [byte cause.code]
  | .holdEnd duration => bytesOf 4 duration.toNat
  | .linkEnd outlet ending outcome relayed =>
    [byte outlet.val, byte ending.code, optByte (outcome.map RegResult.code), byte relayed]
  | .lineAnomaly code detail => [byte code.toNat, byte detail.code]
  | .digitProgress category endReceived digits =>
    [optByte (category.map Category.code), flagByte endReceived, byte digits.length] ++ digitBytes digits
  | .poolCongestion length => [byte length]

/-- R190: a report entry as POLL delivers it, with its 8-byte header. -/
def ReportEntry.bytes (e : ReportEntry) : List Byte :=
  let fields := e.body.bytes
  [byte (8 + fields.length), byte e.body.kindCode, trunkByte e.trunk] ++ bytesOf 4 e.stamp.toNat ++ [byte e.repeats] ++
    fields

/-! ### Stored records -/

/-- Write the numbers of a table of settings in the bytes that carry them (R22). -/
def writeNumbers (rows : List NumericRow) (ns : List Nat) : List Byte :=
  (List.zipWith (fun r n => bytesOf r.bytes n) rows ns).flatten

/-- R28: the 49-byte record of a profile. -/
def Profile.bytes (p : Profile) : List Byte :=
  [p.codes.fIdle, p.codes.fSeize, p.codes.fClear, p.codes.bIdle, p.codes.bAck, p.codes.bAnswer, p.codes.bClearback,
    p.codes.bBlock, p.codes.bGuard].map (fun c => byte c.toNat) ++
  [byte p.method.code, byte p.mode.code, byte p.defaultOutcome.code, byte p.categoryPolicy.code, flagByte p.holdCount] ++
  writeNumbers numericRows p.numbers

/-- R153: a pattern position, 10 for ANY. -/
def positionByte (o : Option Digit) : Byte := byte ((o.map Fin.val).getD 10)

/-- R154: the 12 bytes of an analysis entry, in the layout of SET-ANALYSIS. -/
def AnalysisEntry.bytes (e : AnalysisEntry) (index : Nat) : List Byte :=
  [byte index, flagByte e.valid, e.groups, byte e.patternLength] ++ e.pattern.toList.map positionByte ++
    [byte e.outcome.code, byte e.length]

/-! ### The signalling frame -/

/-- The alignment word, 01110010 (R1). -/
def alignmentWord : BitVec 8 := 0b01110010

/-- R8: the first eight bits of a frame, first bit first. -/
def frameWord (f : SigFrame) : BitVec 8 := f.extractLsb' 96 8

/-- R8: code n stands in bits 9 + 3n to 11 + 3n, most significant bit first. -/
def frameCode (f : SigFrame) (t : TrunkNo) : LineCode := f.extractLsb' (93 - 3 * t.val) 3

/-- R1: the bits of a frame that carries the given codes, T0 first. -/
def frameOf (codes : List LineCode) : SigFrame :=
  BitVec.ofNat 104 (codes.foldl (fun n c => n * 8 + c.toNat) alignmentWord.toNat)

/-! ### Characters of the link -/

/-- A character that the receiver hands to frame assembly (R178, R180). -/
structure Character where
  data : Byte
  marker : Bool
  framingError : Bool
deriving DecidableEq, Repr

/-- R178: the bits of a character with a stop bit at 1, as they are sent. -/
def charBits (data : Byte) (marker : Bool) : CharBits := 1#1 ++ BitVec.ofBool marker ++ data ++ 0#1

/-- R180: the character that the voted bits spell; a stop bit at 0 is a framing error. -/
def Character.ofBits (bits : CharBits) : Character :=
  { data := bits.extractLsb' 1 8, marker := bits.getLsbD 9, framingError := !bits.getLsbD 10 }

/-- R180: how many of the samples 7, 8 and 9 of the present bit stood at 1, with one more sample; `taken` samples of the
character came before it. -/
def countOnes (taken ones : Nat) (level : Bool) : Nat :=
  if 6 ≤ taken % 16 ∧ taken % 16 ≤ 8 then ones + level.toNat else ones

/-- R180: the voted bits, with the value that at least two of three samples of the present bit show. -/
def voteBit (taken ones : Nat) (bits : CharBits) : CharBits :=
  if 2 ≤ ones then bits ||| BitVec.twoPow 11 (taken / 16) else bits

/-- R180: RECEIVING takes a sample. At the ninth sample of the start bit, a vote of 1 gives up the character (DEDUCED,
unsafe, log entry 14: the vote is taken as soon as its samples are); at the ninth sample of the stop bit the character is
complete. -/
def receiveSample (taken ones : Nat) (bits : CharBits) (level : Bool) : SearchState × Option Character :=
  let ones := countOnes taken ones level
  if taken % 16 = 8 then
    let bits := voteBit taken ones bits
    if taken = 8 ∧ bits.getLsbD 0 = true then (.searching, none)
    else if taken = 168 then (.searching, some (Character.ofBits bits))
    else (.receiving (taken + 1) 0 bits, none)
  else (.receiving (taken + 1) ones bits, none)

/-- R180: the receiver takes a sample of CMD, and hands on a character that it completes. In SEARCHING a sample at 0 that
follows one at 1 is sample 1 of a start bit. -/
def LinkReceiver.sample (r : LinkReceiver) (level : Bool) : LinkReceiver × Option Character :=
  match r.search with
  | .searching =>
    ({ search := if r.level && !level then .receiving 1 0 0 else .searching, level := level }, none)
  | .receiving taken ones bits =>
    let x := receiveSample taken ones bits level
    ({ search := x.1, level := level }, x.2)

/-- R178, R180: the samples of bits whose levels are clean, 16 of each. -/
def bitSamples (bits : List Bool) : CharSamples := bits.flatMap (List.replicate 16)

/-- R178: the samples of a character whose line levels are clean. -/
def Character.samples (c : Character) : CharSamples :=
  bitSamples ([false] ++ (List.range 8).map c.data.getLsbD ++ [c.marker, !c.framingError])

end Sys2Proof.Machine
end

