-- ==== Sys2Proof/Machine/Analysis.lean ====
section
/-! DEFINITION. Number analysis (R155 to R157). -/

namespace Sys2Proof.Machine

/-- R155: a pattern position agrees with a digit. -/
def agrees (position : Option Digit) (d : Digit) : Bool :=
  match position with
  | none => true
  | some p => p == d

/-- The pattern positions that take part (R153). -/
def AnalysisEntry.positions (e : AnalysisEntry) : List (Option Digit) := e.pattern.toList.take e.patternLength

/-- R155: an entry applies to the trunks of a group. -/
def AnalysisEntry.applies (e : AnalysisEntry) (g : GroupNo) : Bool := e.valid && e.groups.getLsbD g.val

/-- R155: every position of the pattern that has a digit in the same place agrees with it. -/
def AnalysisEntry.agreesWith (e : AnalysisEntry) (digits : List Digit) : Bool :=
  (List.zipWith agrees e.positions digits).all id

/-- R155 -/
def AnalysisEntry.matchesNumber (e : AnalysisEntry) (digits : List Digit) : Bool :=
  e.patternLength ≤ digits.length && e.agreesWith digits

/-- R155 -/
def AnalysisEntry.possible (e : AnalysisEntry) (digits : List Digit) : Bool :=
  digits.length < e.patternLength && e.agreesWith digits

/-- R156: the decision on a number, with the length a FIXED entry completes it at. -/
def analyse (table : List AnalysisEntry) (g : GroupNo) (default_ : DefaultOutcome) (digits : List Digit) :
    Standing × Option Nat :=
  let applicable := table.filter (·.applies g)
  match applicable.find? (·.matchesNumber digits) with
  | some e =>
    match e.outcome with
    | .fixed => if e.length ≤ digits.length then (.complete, some e.length) else (.undecided, none)
    | .openNumber => (.openNumber, none)
    | .refuse => (.refused, none)
  | none =>
    if applicable.any (·.possible digits) then (.undecided, none)
    else
      match default_ with
      | .openNumber => (.openNumber, none)
      | .refuse => (.refused, none)

/-- R156, R157: run number analysis on a trunk: its standing, and the removal of the digits beyond a FIXED length from
the receive store and the call record. -/
def State.runAnalysis (s : State) (t : TrunkNo) : State :=
  match analyse s.analysis.toList (s.trunk t).group (s.profileOf t).defaultOutcome (s.trunk t).received.digits with
  | (standing, none) => s.mapTrunk t fun r => { r with standing := some standing }
  | (standing, some len) =>
    s.mapTrunk t fun r =>
      { r with
        standing := some standing
        received := { r.received with digits := r.received.digits.take len }
        record := r.record.map fun k => { k with digits := k.digits.take len } }

end Sys2Proof.Machine
end

