-- ==== Sys2Proof/Machine/Signals.lean ====
section
/-! DEFINITION. The signal a trunk sends in each state (R27, R35) and the decoding of an accepted code by the trunk's
state and role (R36, R37). -/

namespace Sys2Proof.Machine

/-- The line signals of a profile (R21). -/
inductive LineSignal where
  | fIdle
  | fSeize
  | fClear
  | bIdle
  | bAck
  | bAnswer
  | bClearback
  | bBlock
  | bGuard
deriving DecidableEq, Repr

/-- The send code of a line signal (R21). -/
def SendCodes.of (c : SendCodes) : LineSignal → LineCode
  | .fIdle => c.fIdle
  | .fSeize => c.fSeize
  | .fClear => c.fClear
  | .bIdle => c.bIdle
  | .bAck => c.bAck
  | .bAnswer => c.bAnswer
  | .bClearback => c.bClearback
  | .bBlock => c.bBlock
  | .bGuard => c.bGuard

/-- R35: the signal sent in a state, by role; `none` in UNEQUIPPED. A break of a decadic digit is the decadic
engine's (R74). -/
def sentSignal (role : Role) : TrunkState → Option LineSignal
  | .unequipped => none
  | .idle => some (if role = .incoming then .bIdle else .fIdle)
  | .localBlocked => some (if role = .outgoing then .fIdle else .bBlock)
  | .remoteBlocked => some .fIdle
  | .failed => some (if role = .outgoing then .fIdle else .bBlock)
  | .outSeizing => some .fSeize
  | .outSelecting => some .fSeize
  | .outWaitAnswer => some .fSeize
  | .outAnswered => some .fSeize
  | .outClearback => some .fSeize
  | .outRejected => some .fSeize
  | .outClearing => some .fClear
  | .inSelecting => some .bAck
  | .inWaitAnswer => some .bAck
  | .inAnswered => some .bAnswer
  | .inClearback => some .bClearback
  | .inRejected => some .bClearback
  | .inGuard => some .bGuard

/-- R35: the code sent in a state, 7 in UNEQUIPPED. -/
def sentCodeOf (c : SendCodes) (role : Role) (st : TrunkState) : LineCode :=
  match sentSignal role st with
  | none => 7
  | some sig => c.of sig

/-- Put a trunk into a state and set its sent code (R35). -/
def State.enter (s : State) (t : TrunkNo) (st : TrunkState) : State :=
  s.mapTrunk t fun r => { r with state := st, sentCode := sentCodeOf (s.profileOf t).codes r.role st }

/-- Set a trunk's sent code to that of a signal (R74). -/
def State.sendSignal (s : State) (t : TrunkNo) (sig : LineSignal) : State :=
  s.mapTrunk t fun r => { r with sentCode := (s.profileOf t).codes.of sig }

/-- R35: the OUT-* states. -/
def TrunkState.isOut : TrunkState → Bool
  | .outSeizing | .outSelecting | .outWaitAnswer | .outAnswered | .outClearback | .outRejected | .outClearing => true
  | _ => false

/-- R35: the IN-* states. -/
def TrunkState.isIn : TrunkState → Bool
  | .inSelecting | .inWaitAnswer | .inAnswered | .inClearback | .inRejected | .inGuard => true
  | _ => false

/-- The call states: OUT-* and IN-*. -/
def TrunkState.inCall (st : TrunkState) : Bool := st.isOut || st.isIn

/-- The actions of the table of R37. -/
inductive LineAction where
  | nothing
  | remoteBlocking
  | remoteFlag
  | remoteUnblocking
  | incomingSeizure
  | idleSignal
  | acknowledgement
  | dualSeizure
  | earlyAnswer
  | answer
  | clearBack
  | reAnswer
  | clearBackBeforeAnswer
  | releaseComplete
  | clearForward
deriving DecidableEq, Repr

/-- R37: the signals listened for in a state, in order of comparison, each with its action. A pair of role and state
that no trunk can reach is given the list of its state. DEDUCED, safe on runs, log entry 22. -/
def listened (role : Role) : TrunkState → List (LineSignal × LineAction)
  | .unequipped => []
  | .idle =>
    match role with
    | .incoming => [(.fSeize, .incomingSeizure), (.fIdle, .nothing), (.fClear, .nothing)]
    | .bothWay => [(.fSeize, .incomingSeizure), (.bBlock, .remoteBlocking), (.fIdle, .nothing), (.fClear, .nothing)]
    | _ => [(.bBlock, .remoteBlocking), (.bIdle, .nothing)]
  | .localBlocked | .failed =>
    match role with
    | .incoming => [(.fIdle, .idleSignal), (.fClear, .nothing)]
    | .bothWay => [(.bBlock, .remoteFlag), (.fIdle, .idleSignal), (.fClear, .nothing)]
    | _ => [(.bBlock, .remoteFlag), (.bIdle, .idleSignal)]
  | .remoteBlocked => [(.bBlock, .nothing), (.bIdle, .remoteUnblocking)]
  | .outSeizing =>
    match role with
    | .bothWay => [(.bAck, .acknowledgement), (.fSeize, .dualSeizure), (.bIdle, .nothing), (.bBlock, .remoteFlag)]
    | _ => [(.bAck, .acknowledgement), (.bIdle, .nothing), (.bBlock, .remoteFlag)]
  | .outSelecting => [(.bAck, .nothing), (.bAnswer, .earlyAnswer), (.bClearback, .clearBackBeforeAnswer)]
  | .outWaitAnswer => [(.bAck, .nothing), (.bAnswer, .answer), (.bClearback, .clearBackBeforeAnswer)]
  | .outAnswered => [(.bAnswer, .nothing), (.bClearback, .clearBack)]
  | .outClearback => [(.bClearback, .nothing), (.bAnswer, .reAnswer)]
  | .outRejected =>
    [(.bIdle, .nothing), (.bAck, .nothing), (.bAnswer, .nothing), (.bClearback, .nothing), (.bBlock, .nothing),
     (.bGuard, .nothing)]
  | .outClearing =>
    [(.bGuard, .nothing), (.bIdle, .releaseComplete), (.bBlock, .releaseComplete), (.bAck, .nothing),
     (.bAnswer, .nothing), (.bClearback, .nothing)]
  | .inSelecting | .inWaitAnswer | .inAnswered | .inClearback | .inRejected =>
    [(.fSeize, .nothing), (.fClear, .clearForward)]
  | .inGuard => [(.fClear, .nothing), (.fIdle, .nothing)]

/-- R36: the first listed signal whose send code equals the code. -/
def decodeCode (c : SendCodes) (table : List (LineSignal × LineAction)) (code : LineCode) :
    Option (LineSignal × LineAction) := table.find? fun row => c.of row.1 == code

/-- R36: a code that equals no listed signal. -/
def State.lineAnomaly (s : State) (t : TrunkNo) (code : LineCode) : State :=
  s.submit (some t) (.lineAnomaly code .unexpectedCode)

/-- R65: the remote-block flag is set with a REMOTE-BLOCK report where it was clear. -/
def State.setRemoteBlock (s : State) (t : TrunkNo) : State :=
  if (s.trunk t).remoteBlock then s
  else (s.mapTrunk t fun r => { r with remoteBlock := true }).submit (some t) .remoteBlock

/-- R65: a signal decoded as B-IDLE, or on a BOTH-WAY trunk as F-IDLE, clears a remote-block flag that is set, with a
REMOTE-UNBLOCK report. -/
def State.noteIdle (s : State) (t : TrunkNo) (sig : LineSignal) : State :=
  if (s.trunk t).remoteBlock && (sig == .bIdle || (sig == .fIdle && (s.trunk t).role == .bothWay)) then
    (s.mapTrunk t fun r => { r with remoteBlock := false }).submit (some t) .remoteUnblock
  else s

end Sys2Proof.Machine
end

