-- ==== Sys2Proof/Machine/Tone.lean ====
section
/-! DEFINITION. Tone arithmetic (R103 to R119): the speech code, the resonator bank, the block decision, recognition,
generation and the measurement figures. -/

namespace Sys2Proof.Machine

/-! ### The speech code -/

/-- R103: the magnitude of the code whose exponent and mantissa bits are `k`, 0 to 127. -/
def codeMagnitude (k : Nat) : Nat := (2 * (k % 16) + 33) * 2 ^ (k / 16) - 33

/-- R103: the linear sample of a speech code. -/
def expand (code : Byte) : Int :=
  let m : Int := codeMagnitude (code.toNat % 128)
  if code.getLsbD 7 then -m else m

/-- R104: the exponent and mantissa bits of the magnitude nearest to `m`, the smaller where two lie equally near. -/
def nearestCode (m : Nat) : Nat :=
  (List.range 128).foldl (fun best k =>
    if ((codeMagnitude k : Int) - m).natAbs < ((codeMagnitude best : Int) - m).natAbs then k else best) 0

/-- R104: the speech code of a linear value. -/
def compress (v : Int) : Byte :=
  let k := nearestCode v.natAbs
  if k = 0 then 0 else BitVec.ofNat 8 (if v < 0 then 128 + k else k)

/-! ### The resonator bank -/

/-- R105: the coefficients of the ten frequencies by measurement index. -/
def coefficients : Vector Int 10 := #v[17121, 13719, 10126, 6393, 2571, -1286, 30274, 28590, 26510, 24062]

/-- R107: one sample into a resonator. The division by the positive 16384 rounds toward minus infinity. -/
def Resonator.step (c : Int) (r : Resonator) (x : Int) : Resonator :=
  { s1 := x + (c * r.s1 + 8192) / 16384 - r.s2, s2 := r.s1 }

/-- R108: the block power of a resonator. -/
def Resonator.power (c : Int) (r : Resonator) : Nat :=
  (r.s1 * r.s1 + r.s2 * r.s2 - (c * r.s1 * r.s2 + 8192) / 16384).toNat

/-- R106: the resonators, by measurement index, that a unit runs in a status. -/
def UnitStatus.runs : UnitStatus → Nat → Bool
  | .free, _ => false
  | .signalling _ .receiver, k => k < 6
  | .signalling _ .sender, k => 6 ≤ k
  | .measuring _ _ _, _ => true

/-- One sample into every resonator that a unit runs (R106, R107). -/
def stepBank (status : UnitStatus) (bank : Vector Resonator 10) (x : Int) : Vector Resonator 10 :=
  Vector.ofFn fun k : Fin 10 =>
    if status.runs k.val then (bank.get k).step (coefficients.get k) x else bank.get k

/-- R19, R106 to R108: a unit that serves a trunk takes a sample. At the 160th sample the block ends: it is kept for
the tone block event and the next block starts from a cleared state. -/
def ToneUnit.takeSample (u : ToneUnit) (code : Byte) : ToneUnit :=
  let x := expand code
  let bank := stepBank u.status u.bank x
  let energy := u.energy + (x * x).toNat
  if u.pos + 1 < Config.blockLength then { u with pos := u.pos + 1, bank := bank, energy := energy }
  else
    { u with pos := 0, bank := Vector.replicate 10 {}, energy := 0, ended := some { bank := bank, energy := energy } }

/-- R108: the block powers of an ended block by measurement index. -/
def EndedBlock.powers (b : EndedBlock) : Vector Nat 10 :=
  Vector.ofFn fun k : Fin 10 => (b.bank.get k).power (coefficients.get k)

/-! ### The block decision -/

/-- R110: rank powers from the greatest down, each with its frequency number; equal powers by the lower number. -/
def insertRanked (x : Nat × Nat) : List (Nat × Nat) → List (Nat × Nat)
  | [] => [x]
  | y :: ys => if y.1 < x.1 then x :: y :: ys else y :: insertRanked x ys

/-- R110: the ranking of a group's powers, given in the order of their frequency numbers. -/
def rankPowers (powers : List Nat) : List (Nat × Nat) :=
  powers.zipIdx.foldl (fun acc x => insertRanked x acc) []

/-- R111: the four tests on P1, P2, P3 and the block energy, and a block of no energy decides nothing. -/
def passesTests (amin p1 p2 p3 energy : Nat) : Bool :=
  (80 * amin) ^ 2 ≤ p2 && p1 ≤ 4 * p2 && 16 * p3 ≤ p2 && 240 * energy ≤ 4 * (p1 + p2) && energy != 0

/-- R110, R111: the pair of frequency numbers, in rising order, that a block decides, or none. -/
def decidePair (amin energy : Nat) (powers : List Nat) : Option (Nat × Nat) :=
  match rankPowers powers with
  | (p1, a) :: (p2, b) :: (p3, _) :: _ =>
    if passesTests amin p1 p2 p3 energy then some (min a b, max a b) else none
  | _ => none

/-- R112: the pair of a forward signal. -/
def ForwardSignal.pair : ForwardSignal → Nat × Nat
  | .ft1 => (0, 1)
  | .ft2 => (0, 2)
  | .ft3 => (0, 3)
  | .ft4 => (0, 4)
  | .ft5 => (0, 5)
  | .ft6 => (1, 2)
  | .ft7 => (1, 3)
  | .ft8 => (1, 4)
  | .ft9 => (1, 5)
  | .ft10 => (2, 3)
  | .ft11 => (2, 4)
  | .ft12 => (2, 5)
  | .ft13 => (3, 4)
  | .ft14 => (3, 5)
  | .ft15 => (4, 5)

/-- R112: the pair of a backward signal. -/
def BackwardSignal.pair : BackwardSignal → Nat × Nat
  | .bt1 => (0, 1)
  | .bt2 => (0, 2)
  | .bt3 => (0, 3)
  | .bt4 => (1, 2)
  | .bt5 => (1, 3)
  | .bt6 => (2, 3)

/-- The forward signals FT1 to FT15. -/
def forwardSignals : List ForwardSignal :=
  [.ft1, .ft2, .ft3, .ft4, .ft5, .ft6, .ft7, .ft8, .ft9, .ft10, .ft11, .ft12, .ft13, .ft14, .ft15]

/-- The backward signals BT1 to BT6. -/
def backwardSignals : List BackwardSignal := [.bt1, .bt2, .bt3, .bt4, .bt5, .bt6]

/-- R106, R110 to R112: the signal that a SIGNALLING unit of a role decides on a block, or none. -/
def decideBlock (role : UnitRole) (amin : Nat) (b : EndedBlock) : Option ToneSignal :=
  match role with
  | .receiver =>
    (decidePair amin b.energy (b.powers.toList.take 6)).bind fun p =>
      (forwardSignals.find? (·.pair == p)).map .forward
  | .sender =>
    (decidePair amin b.energy (b.powers.toList.drop 6)).bind fun p =>
      (backwardSignals.find? (·.pair == p)).map .backward

/-! ### Recognition and cessation -/

/-- The events a unit hands its interlocked tone engine (R113, R114). -/
inductive ToneEvent where
  | recognised (sig : ToneSignal)
  | ceased (sig : ToneSignal)
deriving DecidableEq, Repr

/-- R113: the previous decision that a block leaves. -/
def PreviousDecision.of : Option ToneSignal → PreviousDecision
  | none => .decidedNone
  | some sig => .decided sig

/-- R113, R114: a decided block, and the event it makes, if any. DESIGN CHOICE, unsafe, log entry 29: the recognised
signal, cleared at its cessation by R114, also stands for the context's signal last recognised of R121. -/
def Recognition.decide (r : Recognition) (decision : Option ToneSignal) : Recognition × Option ToneEvent :=
  match r.recognised with
  | none =>
    match decision with
    | some sig =>
      if r.previous = .decided sig then
        ({ recognised := some sig, previous := r.previous, count := 0 }, some (.recognised sig))
      else ({ r with previous := .decided sig }, none)
    | none => ({ r with previous := .decidedNone }, none)
  | some sig =>
    if decision = some sig then ({ r with count := 0 }, none)
    else if r.count + 1 < 2 then ({ r with count := r.count + 1 }, none)
    else ({ recognised := none, previous := .cleared, count := 0 }, some (.ceased sig))

/-- R115: hold start clears the previous decision and the count and keeps the recognised signal. -/
def Recognition.atHoldStart (r : Recognition) : Recognition := { r with previous := .cleared, count := 0 }

/-! ### Generation -/

/-- sin(2π k / 160) × 2^48 rounded to the nearest integer, for k from 0 to 40 (log entry 11). DEDUCED, unsafe, log
entry 11. -/
def quarterSine : List Int :=
  [0, 11050655726448, 22084272142734, 33083836212076, 44032387403943, 54913043845964, 65709028354552, 76403694304102,
   86980551294885, 97423290580048, 107715810212518, 117842239873037, 127786965341048, 137534652570687, 147070271334773,
   156379118400326, 165446840199891, 174259454963694, 182803374278519, 191065424040061, 199032864766430,
   206693411241520, 214035251457913, 221047064830142, 227718039650213, 234037889758477, 239996870404138,
   245585793270956, 250796040644963, 255619578702356, 260048969897066, 264077384428920, 267698610774696,
   270907065265839, 273697800698078, 276066513959654, 278009552666403, 279523920793475, 280607283294981,
   281257969704469, 281474976710656]

/-- sin(2π k / 160) × 2^48 for any k, by the symmetries of the sine. -/
def scaledSine (k : Nat) : Int :=
  let k := k % 160
  if k ≤ 40 then quarterSine.getD k 0
  else if k ≤ 80 then quarterSine.getD (80 - k) 0
  else if k ≤ 120 then -quarterSine.getD (k - 80) 0
  else -quarterSine.getD (160 - k) 0

/-- R105: the multiple of 50 Hz that a frequency is, by measurement index. -/
def frequencySteps (index : Nat) : Nat := [26, 29, 32, 35, 38, 41, 10, 13, 16, 19].getD index 0

/-- The two measurement indices of a signal's frequencies (R105, R112). -/
def ToneSignal.indices : ToneSignal → Nat × Nat
  | .forward f => f.pair
  | .backward b => (b.pair.1 + 6, b.pair.2 + 6)

/-- R117: the nearest integer to n / 2^48, halves away from zero. -/
def roundScaled (n : Int) : Int :=
  if 0 ≤ n then (2 * n + 2 ^ 48) / 2 ^ 49 else -((2 * -n + 2 ^ 48) / 2 ^ 49)

/-- R116, R117: the value generated at count n, rounded and limited. Every frequency is a multiple of 50 Hz, so its
phase after n samples is a multiple of 1/160 of a cycle. -/
def Generation.value (g : Generation) : Int :=
  let a := frequencySteps g.sig.indices.1
  let b := frequencySteps g.sig.indices.2
  max (-8031) (min 8031 (roundScaled (g.amplitude * (scaledSine (a * g.n) + scaledSine (b * g.n)))))

/-- R116: the code handed to the highway interface. -/
def Generation.code (g : Generation) : Byte := compress g.value

/-! ### Measurement -/

/-- Bits of a square root from the top down: `r` is the part found so far. -/
def sqrtBits (n : Nat) : Nat → Nat → Nat
  | 0, r => r
  | k + 1, r => sqrtBits n k (if (r + 2 ^ k) * (r + 2 ^ k) ≤ n then r + 2 ^ k else r)

/-- The square root of n, rounded down. -/
def floorSqrt (n : Nat) : Nat := sqrtBits n (n.log2 / 2 + 1) 0

/-- R118: add an ended block to the sums of a measurement. -/
def ToneUnit.addBlock (u : ToneUnit) (b : EndedBlock) : ToneUnit :=
  { u with energySum := u.energySum + b.energy, powerSums := Vector.zipWith (· + ·) u.powerSums b.powers }

/-- R119: the lowest index whose sum is greatest. -/
def strongestIndex (sums : List Nat) : Nat :=
  (sums.zipIdx.foldl (fun best x => if best.1 < x.1 then x else best) (sums.getD 0 0, 0)).2

/-- R98, R118, R119: the three figures over b blocks; absent where b is 0. -/
def measurementFigures (energySum : Nat) (powerSums : List Nat) (b : Nat) : Option TestFigures :=
  if b = 0 then none
  else
    let k := strongestIndex powerSums
    some { rms := floorSqrt (energySum / (160 * b)), strongest := k,
           estimate := floorSqrt (powerSums.getD k 0 / b) / 80 }

end Sys2Proof.Machine
end

