-- ==== Sys2Proof/Machine/Pool.lean ====
section
/-! DEFINITION. The tone unit pool (R88 to R101) and the opening of an interlocked tone engine context at a grant
(R121, R122, R130): what a grant starts on its own, without handing anything to the trunk supervisor. -/

namespace Sys2Proof.Machine

/-! ### Signals and timers of a context -/

/-- A profile time in seconds, in millisecond events (R5). -/
def seconds (n : Nat) : Nat := 1000 * n

/-- R120: the forward signal of a digit. -/
def digitSignal (d : Digit) : ForwardSignal :=
  [ForwardSignal.ft10, .ft1, .ft2, .ft3, .ft4, .ft5, .ft6, .ft7, .ft8, .ft9].getD d.val .ft10

/-- R120: the forward signal of a category. -/
def Category.signal : Category → ForwardSignal
  | .ordinary => .ft12
  | .priority => .ft13
  | .test => .ft14

/-- R116: the unit a trunk holds for signalling starts a tone signal with the send amplitude of the trunk's profile. -/
def State.startSignal (s : State) (t : TrunkNo) (sig : ToneSignal) : State :=
  match (s.trunk t).unit with
  | none => s
  | some h =>
    s.mapUnit h.unit fun u =>
      { u with generation := some { sig := sig, amplitude := (s.profileOf t).sendAmplitude, n := 0 } }

/-- R116: the unit a trunk holds for signalling stops its tone signal. -/
def State.stopSignal (s : State) (t : TrunkNo) : State :=
  match (s.trunk t).unit with
  | none => s
  | some h => s.mapUnit h.unit fun u => { u with generation := none }

/-- Set a trunk's interlocked tone engine context. -/
def State.setTone (s : State) (t : TrunkNo) (c : ToneContext) : State := s.mapTrunk t fun r => { r with tone := some c }

/-- The interlock timer for the profile's interlock limit. -/
def State.interlockTimer (s : State) (t : TrunkNo) : ToneTimer :=
  { kind := .interlock, left := seconds (s.profileOf t).interlock }

/-! ### The sender's choice of an item -/

/-- R122: the next item of a send store, if there is one. -/
def SendStore.nextItem (store : SendStore) : Option SendItem :=
  if store.pos ≤ store.digits.length then some (.digit store.pos)
  else if store.endFlag then some .endOfNumber
  else none

/-- R120: the forward signal of an item: the category is that of the SEIZE, which the call record holds (R169). -/
def State.itemSignal (s : State) (t : TrunkNo) : SendItem → ForwardSignal
  | .digit pos => digitSignal ((s.trunk t).send.digits.getD (pos - 1) 0)
  | .category => (((s.trunk t).record.bind (·.category)).getD .ordinary).signal
  | .endOfNumber => .ft11

/-- R122: send an item: its forward signal starts, the sender enters SENDING and the interlock timer starts. -/
def State.sendItem (s : State) (t : TrunkNo) (c : ToneSender) (item : SendItem) : State :=
  (s.startSignal t (.forward (s.itemSignal t item))).setTone t
    (.sender
      { phase := .sending
        item := some item
        lastSent := match item with
          | .digit pos => some pos
          | _ => c.lastSent
        noted := none
        timer := some (s.interlockTimer t) })

/-- R122, R127: choose the next item; without one, enter WAITING with the sender digit wait. -/
def State.chooseItem (s : State) (t : TrunkNo) (c : ToneSender) : State :=
  match (s.trunk t).send.nextItem with
  | some item => s.sendItem t c item
  | none =>
    s.setTone t
      (.sender { c with
        phase := .waiting
        noted := none
        timer := some { kind := .senderWait, left := seconds (s.profileOf t).senderDigitWait } })

/-! ### Opening a context -/

/-- R122: a sender context at the grant. -/
def State.openSender (s : State) (t : TrunkNo) : State :=
  s.chooseItem t { phase := .waiting, item := none, lastSent := none, noted := none, timer := none }

/-- R130: the number-complete mark with which a receiver context opens. -/
def Trunk.opensComplete (r : Trunk) : Bool := (r.linkRecord.map (·.inletComplete)).getD false

/-- R130: a receiver context at the grant. -/
def State.openReceiver (s : State) (t : TrunkNo) : State :=
  s.setTone t
    (.receiver
      { phase := .listening
        pending := none
        categoryAsked := false
        complete := (s.trunk t).opensComplete
        heldCeased := false
        timer :=
          if (s.trunk t).opensComplete then none
          else some { kind := .interDigit, left := seconds (s.profileOf t).interDigitWait } })

/-! ### Grants, freeing and the wait queues -/

/-- R89: grant a unit for signalling; its record starts afresh and the trunk's context opens. -/
def State.grantCall (s : State) (u : UnitNo) (t : TrunkNo) (role : UnitRole) : State :=
  let s := s.mapUnit u fun _ => { status := .signalling t role }
  let s := s.mapTrunk t fun r => { r with unit := some { unit := u, role := role } }
  match role with
  | .sender => s.openSender t
  | .receiver => s.openReceiver t

/-- R89: grant a unit for measuring. -/
def State.grantTest (s : State) (u : UnitNo) (t : TrunkNo) (blocks : Nat) : State :=
  s.mapUnit u fun _ => { status := .measuring t blocks 0 }

/-- Replace the call wait queue. -/
def State.withCallQueue (s : State) (q : List CallWait) : State := { s with callQueue := q }

/-- Replace the test wait queue. -/
def State.withTestQueue (s : State) (q : List TestWait) : State := { s with testQueue := q }

/-- R92: hand on a free unit: to the head of the call wait queue, else, where hold is not in force, to the head of the
test wait queue. -/
def State.handOn (s : State) (u : UnitNo) : State :=
  match s.callQueue with
  | e :: rest => (s.withCallQueue rest).grantCall u e.trunk e.role
  | [] =>
    match s.testQueue with
    | r :: rest => if s.inHold then s else (s.withTestQueue rest).grantTest u r.trunk r.blocks
    | [] => s

/-- R92: free a unit; it is handed on but for the hold limit's expiry (R101). -/
def State.freeUnit (s : State) (handsOn : Bool) (u : UnitNo) : State :=
  let s := s.mapUnit u fun _ => {}
  if handsOn then s.handOn u else s

/-- R121: a trunk gives up the unit it holds for signalling, and its context ends. -/
def State.endTone (s : State) (handsOn : Bool) (t : TrunkNo) : State :=
  let r := s.trunk t
  let s := s.mapTrunk t fun r => { r with tone := none, unit := none }
  match r.unit with
  | none => s
  | some h => s.freeUnit handsOn h.unit

/-- R94: a trunk's entry is removed from the call wait queue. -/
def State.leaveQueue (s : State) (t : TrunkNo) : State :=
  s.withCallQueue (s.callQueue.filter fun e => e.trunk != t)

/-- The lowest-numbered free unit (R90). -/
def State.freeUnitNo (s : State) : Option UnitNo := (List.finRange 8).find? fun u => (s.unit u).status == .free

/-- The unit that measures a trunk's line, with the blocks done. -/
def State.measuringUnit (s : State) (t : TrunkNo) : Option (UnitNo × Nat) :=
  (List.finRange 8).findSome? fun u =>
    match (s.unit u).status with
    | .measuring k _ done => if k = t then some (u, done) else none
    | _ => none

/-- R98: submit the TEST-RESULT report of a unit's measurement over the blocks done. -/
def State.reportMeasurement (s : State) (u : UnitNo) (t : TrunkNo) (status : TestStatus) (done : Nat) : State :=
  s.submit (some t)
    (.testResult status done (measurementFigures (s.unit u).energySum (s.unit u).powerSums.toList done))

/-- R90, R91: grant the lowest-numbered free unit, or join the call wait queue with a POOL-CONGESTION report. -/
def State.grantOrQueue (s : State) (t : TrunkNo) (role : UnitRole) : State :=
  match s.freeUnitNo with
  | some u => s.grantCall u t role
  | none =>
    let s := s.withCallQueue (s.callQueue ++ [{ trunk := t, role := role, left := (s.profileOf t).unitWait }])
    s.submit none (.poolCongestion s.callQueue.length)

/-- R90, R99: take a call request, after settling a measurement or a test request on the same trunk. -/
def State.callRequest (s : State) (t : TrunkNo) (role : UnitRole) : State :=
  match s.measuringUnit t with
  | some (u, done) => (s.reportMeasurement u t .abortedSeized done).grantCall u t role
  | none =>
    if s.testQueue.any (·.trunk == t) then
      ((s.withTestQueue (s.testQueue.filter fun r => r.trunk != t)).submit (some t)
        (.testResult .abortedSeized 0 none)).grantOrQueue t role
    else s.grantOrQueue t role

/-- R101: each free unit, the lowest-numbered first, goes to the head of the test wait queue, where the call wait queue
is empty. -/
def State.serveTests (s : State) : State :=
  s.forUnits fun s u =>
    match s.callQueue, s.testQueue with
    | [], r :: rest =>
      if (s.unit u).status = .free then (s.withTestQueue rest).grantTest u r.trunk r.blocks else s
    | _, _ => s

/-- R100: at hold start the units that measure abort, U0 first. -/
def State.abortMeasurements (s : State) : State :=
  s.forUnits fun s u =>
    match (s.unit u).status with
    | .measuring t _ done => (s.reportMeasurement u t .abortedHold done).freeUnit true u
    | _ => s

end Sys2Proof.Machine
end

