-- ==== Sys2Proof/Machine/Supervision.lean ====
section
/-! DEFINITION. The trunk supervisor's shared operations, for a trunk on its own: the end of register work and of a
call (R40, R41), entries to IDLE, FAILED and OUT-CLEARING (R38, R42, R50), the incoming seizure (R57) and the outcomes
of the register phases (R46, R58). What a relay link adds stands in Relay.lean. -/

namespace Sys2Proof.Machine

/-! ### The end of register work and of a call -/

/-- R40, but for the relay link: the engines' contexts end, the tone unit is given up, an entry in the call wait queue
is removed, and the filter mode becomes LINE. -/
def State.stopRegister (s : State) (handsOn : Bool) (t : TrunkNo) : State :=
  let s := s.mapTrunk t fun r => { r with decadic := none }
  ((s.endTone handsOn t).leaveQueue t).setFilter t .line

/-- R41, for a trunk whose relay link has been dissolved: register work ended, stores emptied, timer and reference
discarded, standing cleared (R157), and the record closed with its RELEASED report. -/
def State.endCall (s : State) (handsOn : Bool) (t : TrunkNo) (cause : Cause) : State :=
  let s := s.stopRegister handsOn t
  let s := s.mapTrunk t fun r =>
    { r with received := {}, send := {}, timer := none, callRef := none, standing := none }
  s.closeRecord t cause

/-- The cause with which a call that ends by itself is closed (R41, R175). -/
def Trunk.closingCause (r : Trunk) : Cause := r.cause.getD .normal

/-- R42: entry to FAILED with a failure cause, for a call whose reference was `ref`. -/
def State.enterFailed (s : State) (t : TrunkNo) (cause : Cause) (ref : Option CallRef) : State :=
  let s := (s.mapTrunk t fun r => { r with cause := some cause }).enter t .failed
  let s := (s.submit (some t) (.trunkFailed cause ref)).countFor t Traffic.addFailure
  if cause = .holdLimit then s else s.capture .trunkFailed (some t)

/-! ### Outcomes of the incoming register phase -/

/-- R85: a receiving context turns into the clear watch; a break that stands keeps its timer. -/
def DecadicContext.toWatch : DecadicContext → DecadicContext
  | .receiving c => .watching { line := c.line, clearRec := c.clearRec }
  | c => c

/-- R58, for the inlet of no link or of a link already settled: an outcome that finds the trunk out of IN-SELECTING is
discarded. An entry in the call wait queue is removed (R94). -/
def State.inOutcome (s : State) (t : TrunkNo) (o : RegOutcome) : State :=
  if (s.trunk t).state ≠ .inSelecting then s
  else
    let s := ((s.leaveQueue t).mapTrunk t fun r => { r with decadic := r.decadic.map DecadicContext.toWatch }).setFilter t .line
    match o with
    | .complete =>
      let s := s.enter t .inWaitAnswer
      let r := s.trunk t
      s.submit (some t) (.digitsComplete r.callRef r.received.category r.received.digits)
    | .reject cause =>
      let s := (s.giveCause t cause).enter t .inRejected
      (s.submit (some t) (.registerEnd (s.trunk t).callRef cause.result (some cause))).countFor t Traffic.addFailure

/-! ### Incoming seizure and entry to IDLE -/

/-- R78: the receiving context at the seizure. -/
def newReceiver (p : Profile) : DecadicReceiver :=
  { phase := .between, line := .made, since := 0, pulses := 0,
    wait := some { kind := .firstDigit, left := seconds p.firstDigitWait }, digitEnd := none, clearRec := none,
    complete := false }

/-- R57: the register phase that an incoming seizure starts, by the profile's register method. -/
def State.startReceiving (s : State) (t : TrunkNo) : State :=
  match (s.profileOf t).method with
  | .noRegister => s.inOutcome t .complete
  | .decadic =>
    (s.setFilter t .pulse).mapTrunk t fun r => { r with decadic := some (.receiving (newReceiver (s.profileOf t))) }
  | .tone => s.callRequest t .receiver

/-- R57: an incoming seizure. -/
def State.incomingSeizure (s : State) (t : TrunkNo) : State :=
  let s : State := { s with sequence := s.sequence + 1 }
  let s := (s.openRecord t .incoming s.sequence none).countFor t Traffic.addSeizure
  let s := (s.enter t .inSelecting).submit (some t) (.seizedIn (some s.sequence))
  s.startReceiving t

/-- The accepted code of a trunk, decoded by its state and role (R36); `none` for UNKNOWN. -/
def State.decoded (s : State) (t : TrunkNo) : Option (LineCode × Option (LineSignal × LineAction)) :=
  let r := s.trunk t
  r.lcr.accepted.map fun code => (code, decodeCode (s.profileOf t).codes (listened r.role r.state) code)

/-- R36, R37 in IDLE: the decoding made on entry to IDLE and on a code accepted there. -/
def State.decodeIdle (s : State) (t : TrunkNo) : State :=
  match s.decoded t with
  | none => s
  | some (code, none) => s.lineAnomaly t code
  | some (_, some (sig, action)) =>
    let s := s.noteIdle t sig
    match action with
    | .incomingSeizure => s.incomingSeizure t
    | .remoteBlocking => (s.setRemoteBlock t).enter t .remoteBlocked
    | _ => s

/-- R38: entry to IDLE, or to LOCAL-BLOCKED where the local-block flag is set; in IDLE the accepted code is decoded at
once. -/
def State.enterIdle (s : State) (t : TrunkNo) : State :=
  if (s.trunk t).localBlock then s.enter t .localBlocked else (s.enter t .idle).decodeIdle t

/-! ### Release and forced clear -/

/-- The call of a trunk ends by itself and the trunk becomes free (R55, R62): the cause field is cleared. -/
def State.finishCall (s : State) (t : TrunkNo) : State :=
  let s := s.endCall true t (s.trunk t).closingCause
  (s.mapTrunk t fun r => { r with cause := none }).enterIdle t

/-- R36, R37 in OUT-CLEARING: the decoding made on entry and on a code accepted there (R38, R55). -/
def State.decodeClearing (s : State) (t : TrunkNo) : State :=
  match s.decoded t with
  | none => s
  | some (code, none) => s.lineAnomaly t code
  | some (_, some (sig, action)) =>
    let s := s.noteIdle t sig
    match action with
    | .releaseComplete => s.finishCall t
    | _ => s

/-- R50, R54: clear forward: F-CLEAR, the release timer, OUT-CLEARING, and the accepted code decoded at once. The
register work has been ended. -/
def State.clearOut (s : State) (t : TrunkNo) : State :=
  let s := (s.dropTimer t).enter t .outClearing
  (s.startTimer t .release (s.profileOf t).releaseTimer).decodeClearing t

/-- R50: the unit clears forward of its own accord on a trunk that is in no relay link (any more). -/
def State.forcedClear (s : State) (t : TrunkNo) (cause : Cause) : State :=
  ((s.giveCause t cause).stopRegister true t).clearOut t

/-! ### Outcomes of the outgoing register phase -/

/-- R51: entry to OUT-WAIT-ANSWER, with the answer-wait timer where its limit is not 0. -/
def State.enterWaitAnswer (s : State) (t : TrunkNo) : State :=
  let s := s.enter t .outWaitAnswer
  if (s.profileOf t).answerWait = 0 then s else s.startTimer t .answerWait (seconds (s.profileOf t).answerWait)

/-- R46, for a trunk in OUT-SELECTING, but for the relay link. -/
def State.outOutcomeAlone (s : State) (t : TrunkNo) (o : RegOutcome) : State :=
  let s := s.mapTrunk t fun r => { r with decadic := none }
  match o with
  | .complete =>
    let s := s.enterWaitAnswer t
    s.submit (some t) (.registerEnd (s.trunk t).callRef .complete none)
  | .reject cause =>
    let s := (s.giveCause t cause).enter t .outRejected
    (s.submit (some t) (.registerEnd (s.trunk t).callRef cause.result (some cause))).countFor t Traffic.addFailure

end Sys2Proof.Machine
end

