-- ==== Sys2Proof/Machine/Relay.lean ====
section
/-! DEFINITION. Relay links (R159 to R167): what a link carries, how it dissolves, and the shared operations of the
trunk supervisor and the engines that reach across it. The tone receiver's outcomes stand here (R138 to R140), since
a link hands them in. -/

namespace Sys2Proof.Machine

/-! ### Outcomes at a tone receiver -/

/-- R139: the backward signal of an outcome. -/
def RegOutcome.signal : RegOutcome → BackwardSignal
  | .complete => .bt4
  | .reject .unobtainable => .bt6
  | .reject _ => .bt5

/-- R164, R190: the outcome as LINK-END and REGISTER-END show it. -/
def RegOutcome.result : RegOutcome → RegResult
  | .complete => .complete
  | .reject cause => cause.result

/-- R136, R138: the outcome's backward signal starts as the response; the context is FINAL, the interlock timer runs,
and the outcome is handed to the trunk supervisor. -/
def State.respondOutcome (s : State) (t : TrunkNo) (c : ToneReceiver) (o : RegOutcome) : State :=
  ((s.startSignal t (.backward o.signal)).setTone t
    (.receiver { c with phase := .final, pending := none, timer := some (s.interlockTimer t) })).inOutcome t o

/-- R140: the outcome's backward signal starts as a pulse; the context is PULSING, the pulse timer runs, and the outcome
is handed to the trunk supervisor. -/
def State.pulseOutcome (s : State) (t : TrunkNo) (c : ToneReceiver) (o : RegOutcome) : State :=
  ((s.startSignal t (.backward o.signal)).setTone t
    (.receiver { c with
      phase := .pulsing
      pending := none
      timer := some { kind := .pulse, left := (s.profileOf t).pulseDuration } })).inOutcome t o

/-- R139: an outcome that reaches a tone receiver from outside its own choice of response. -/
def State.outsideOutcome (s : State) (t : TrunkNo) (c : ToneReceiver) (o : RegOutcome) : State :=
  if c.pending.isSome then s
  else
    match c.phase with
    | .held => if c.heldCeased then s.pulseOutcome t c o else s.respondOutcome t c o
    | .listening => s.pulseOutcome t c o
    | .responding => s.setTone t (.receiver { c with pending := some { outcome := o, own := false } })
    | .pulsing => s
    | .final => s

/-! ### The link -/

/-- R159, R166: a link dissolves with a LINK-END report. DEDUCED, unsafe, log entry 9: the order of the reports of one
event. -/
def State.dissolve (s : State) (inlet outlet : TrunkNo) (ending : LinkEnding) (outcome : Option RegResult) : State :=
  let relayed := ((s.trunk inlet).linkRecord.map (·.relayed)).getD 0
  let s := s.mapTrunk inlet fun r => { r with link := none, linkRecord := none }
  let s := s.mapTrunk outlet fun r => { r with link := none, linkRecord := none }
  s.submit (some inlet) (.linkEnd outlet ending outcome relayed)

/-- The outlet that a trunk is the inlet of. -/
def Trunk.outlet (r : Trunk) : Option TrunkNo :=
  match r.link with
  | some { peer := peer, part := .inlet } => some peer
  | _ => none

/-- The inlet that a trunk is the outlet of. -/
def Trunk.inlet (r : Trunk) : Option TrunkNo :=
  match r.link with
  | some { peer := peer, part := .outlet } => some peer
  | _ => none

/-- R164: the outcome that a link carries for the outlet's outcome. -/
def RegOutcome.carried : RegOutcome → RegOutcome
  | .complete => .complete
  | .reject .unobtainable => .reject .unobtainable
  | .reject _ => .reject .congestion

/-- R164: an inlet whose link has dissolved takes the carried outcome. -/
def State.takeCarried (s : State) (inlet : TrunkNo) (o : RegOutcome) : State :=
  match (s.trunk inlet).tone with
  | some (.receiver c) => s.outsideOutcome inlet c o
  | _ => s.inOutcome inlet o

/-- R164: a trunk that is an outlet carries an outcome back to its inlet; any other trunk does nothing. -/
def State.carryBack (s : State) (outlet : TrunkNo) (o : RegOutcome) : State :=
  match (s.trunk outlet).inlet with
  | none => s
  | some inlet => (s.dissolve inlet outlet .outlet (some o.carried.result)).takeCarried inlet o.carried

/-- R165: a trunk that is an inlet dissolves its link from its side, and the outlet clears forward with cause
INLET-CLEARED; any other trunk does nothing. -/
def State.inletGone (s : State) (inlet : TrunkNo) : State :=
  match (s.trunk inlet).outlet with
  | none => s
  | some outlet => (s.dissolve inlet outlet .inlet none).forcedClear outlet .inletCleared

/-! ### Operations that reach across a link -/

/-- R40: the end of a trunk's register work; where the trunk is an outlet, its link carries `carried` back, and where
it is an inlet, the link dissolves from the inlet's side. DEDUCED, unsafe, log entry 27: the unit is handed on before the
link carries its outcome, so an inlet at the head of the call wait queue is granted it first. -/
def State.endRegisterWork (s : State) (t : TrunkNo) (carried : RegOutcome) : State :=
  ((s.stopRegister true t).carryBack t carried).inletGone t

/-- R46, R164: the outcome of an outgoing register phase; one that finds the trunk out of OUT-SELECTING is discarded. -/
def State.outOutcome (s : State) (t : TrunkNo) (o : RegOutcome) : State :=
  if (s.trunk t).state ≠ .outSelecting then s else (s.outOutcomeAlone t o).carryBack t o

/-- R58, R165: a rejection handed up at once at an incoming trunk, which dissolves the link of an inlet. -/
def State.rejectIn (s : State) (t : TrunkNo) (cause : Cause) : State :=
  (s.inOutcome t (.reject cause)).inletGone t

/-! ### The outlet's sending engine -/

/-- R74: start the digit at the send position, with a break. -/
def State.startBreak (s : State) (t : TrunkNo) (c : DecadicSender) (breaks : Nat) : State :=
  (s.sendSignal t .fClear).mapTrunk t fun r =>
    { r with decadic := some (.sending { c with phase := .breaking, breaks := breaks, timer := some (s.profileOf t).sendBreak }) }

/-- R74: the breaks of a digit. -/
def digitBreaks (d : Digit) : Nat := if d.val = 0 then 10 else d.val

/-- R75: the digit that stands at the send position, if any. -/
def SendStore.current (store : SendStore) : Option Digit := store.digits[store.pos - 1]?

/-- R76, R77, R127: the sending engine takes digits appended to the send store. -/
def State.takeDigits (s : State) (t : TrunkNo) : State :=
  match (s.trunk t).decadic, (s.trunk t).tone with
  | some (.sending c), _ =>
    if c.phase = .waiting then
      if s.inHold then s.mapTrunk t fun r => { r with decadic := some (.sending { c with timer := none }) }
      else
        match (s.trunk t).send.current with
        | some d => s.startBreak t c (digitBreaks d)
        | none => s
    else s
  | _, some (.sender c) => if c.phase = .waiting then s.chooseItem t c else s
  | _, _ => s

/-- R76, R127: the sending engine takes an end flag set with no digit appended. DEDUCED, unsafe, log entry 26: where a
digit that arrived during the same hold still waits in WAITING, the flag is only stored. -/
def State.takeEnd (s : State) (t : TrunkNo) : State :=
  match (s.trunk t).decadic, (s.trunk t).tone with
  | some (.sending c), _ =>
    if c.phase = .waiting ∧ (s.trunk t).send.current = none then s.outOutcome t .complete else s
  | _, some (.sender c) => if c.phase = .waiting then s.chooseItem t c else s
  | _, _ => s

/-! ### The inlet's digits and its completion -/

/-- R162: the outlet whose send store a digit just stored on a linked inlet overflows. -/
def State.overflowing (s : State) (t : TrunkNo) : Option TrunkNo :=
  match (s.trunk t).outlet, (s.trunk t).linkRecord with
  | some outlet, some l =>
    if l.delete < (s.trunk t).received.digits.length ∧ Config.storeRoom ≤ (s.trunk outlet).send.digits.length then
      some outlet
    else none
  | _, _ => none

/-- R162: a digit just stored on a linked inlet is deleted, or appended to the outlet's send store. -/
def State.relayDigit (s : State) (t : TrunkNo) (d : Digit) : State :=
  match (s.trunk t).outlet, (s.trunk t).linkRecord with
  | some outlet, some l =>
    if l.delete < (s.trunk t).received.digits.length then
      let s := s.mapTrunk t fun r => { r with linkRecord := some { l with relayed := l.relayed + 1 } }
      (s.mapTrunk outlet fun r => { r with send := { r.send with digits := r.send.digits ++ [d] } }).takeDigits outlet
    else s
  | _, _ => s

/-- R85, R142: the inlet's engine sets its number-complete mark: no digit in progress, no digit wait. -/
def Trunk.markComplete (r : Trunk) : Trunk :=
  { r with
    decadic := r.decadic.map fun
      | .receiving c =>
        .receiving { c with complete := true, phase := .between, pulses := 0, wait := none, digitEnd := none }
      | c => c
    tone := r.tone.map fun
      | .receiver c =>
        .receiver { c with
          complete := true
          timer := if c.phase = .listening ∨ c.phase = .held then none else c.timer }
      | c => c }

/-- R163: the completion of a linked inlet's number: the inlet's mark, the link's inlet-complete flag and the outlet's
end flag are set, and the outlet's engine takes the end flag. -/
def State.completeInlet (s : State) (t outlet : TrunkNo) : State :=
  let s := s.mapTrunk t fun r =>
    { r.markComplete with linkRecord := r.linkRecord.map fun l => { l with inletComplete := true } }
  (s.mapTrunk outlet fun r => { r with send := { r.send with endFlag := true } }).takeEnd outlet

/-- R85, R163: a COMPLETE reached at a decadic trunk goes to the link of an inlet, and to the trunk supervisor
otherwise. -/
def State.completeIn (s : State) (t : TrunkNo) : State :=
  match (s.trunk t).outlet with
  | some outlet => s.completeInlet t outlet
  | none => s.inOutcome t .complete

/-- R132, R81: in HOST mode the digits of the receive store are shown to the host. -/
def State.showProgress (s : State) (t : TrunkNo) : State :=
  let r := (s.trunk t).received
  s.submit (some t) (.digitProgress r.category r.endReceived r.digits)

/-- R81, R132: append a digit to the receive store and enter it in the call record. -/
def State.storeDigit (s : State) (t : TrunkNo) (d : Digit) : State :=
  (s.mapTrunk t fun r => { r with received := { r.received with digits := r.received.digits ++ [d] } }).recordDigit t d

/-- R69, R166: at hold limit expiry the link of a trunk dissolves with no outcome, from either side. -/
def State.dissolveForHoldLimit (s : State) (t : TrunkNo) : State :=
  match (s.trunk t).link with
  | some { peer := peer, part := .inlet } => s.dissolve t peer .holdLimit none
  | some { peer := peer, part := .outlet } => s.dissolve peer t .holdLimit none
  | none => s

end Sys2Proof.Machine
end

