-- ==== Sys2Proof/Machine/Supervisor.lean ====
section
/-! DEFINITION. The trunk supervisor's actions on line signals and on the clear-forward event (R44 to R53, R61, R63 to
R65, R70), and the failing of a trunk (R45, R56, R69). -/

namespace Sys2Proof.Machine

/-- R73: the sending context with which a decadic register phase begins. -/
def newSender (p : Profile) : DecadicSender :=
  { phase := .pause, breaks := 0, interrupted := false, timer := some p.sendPause }

/-- R44: the acknowledgement of an outgoing seizure. -/
def State.acknowledged (s : State) (t : TrunkNo) : State :=
  let s := (s.dropTimer t).mapRecord t fun r => { r with ackTime := some s.tmb.counter }
  let s := s.submit (some t) (.acknowledged (s.trunk t).callRef)
  match (s.profileOf t).method with
  | .noRegister => s.enterWaitAnswer t
  | .decadic =>
    (s.enter t .outSelecting).mapTrunk t fun r => { r with decadic := some (.sending (newSender (s.profileOf t))) }
  | .tone => (s.enter t .outSelecting).callRequest t .sender

/-- R48: the first answer of an outgoing call. -/
def State.firstAnswer (s : State) (t : TrunkNo) : State :=
  let s := ((s.dropTimer t).stampAnswer t).countFor t Traffic.addOutAnswer
  (s.submit (some t) (.answer (s.trunk t).callRef)).enter t .outAnswered

/-- R49: an early answer ends the register phase; a link carries COMPLETE. -/
def State.earlyAnswer (s : State) (t : TrunkNo) : State := (s.endRegisterWork t .complete).firstAnswer t

/-- R47: the far end clears back before answer. -/
def State.clearBackBeforeAnswer (s : State) (t : TrunkNo) : State :=
  let s := (s.endRegisterWork t (.reject .congestion)).dropTimer t
  let s := (s.giveCause t .congestion).enter t .outRejected
  (s.submit (some t) (.registerEnd (s.trunk t).callRef .congestion (s.trunk t).cause)).countFor t Traffic.addFailure

/-- R52: the far end clears back an answered call. -/
def State.clearedBack (s : State) (t : TrunkNo) : State :=
  let s := (s.enter t .outClearback).submit (some t) (.clearBack (s.trunk t).callRef)
  if (s.profileOf t).clearBackTimer = 0 then s
  else s.startTimer t .clearBack (seconds (s.profileOf t).clearBackTimer)

/-- R52: the far end answers again. -/
def State.reAnswered (s : State) (t : TrunkNo) : State :=
  let s := (s.dropTimer t).mapRecord t CallRecord.countAnswer
  (s.submit (some t) (.reAnswer (s.trunk t).callRef)).enter t .outAnswered

/-- R61: a clear-forward at an incoming trunk. -/
def State.clearForward (s : State) (t : TrunkNo) : State :=
  let s := ((s.endRegisterWork t (.reject .congestion)).setFilter t .line).enter t .inGuard
  let s := s.startTimer t .guard (s.profileOf t).guardTimer
  s.submit (some t) (.clearForward (s.trunk t).callRef)

/-- R63, R64: a dual seizure, resolved by the trunk's glare role. -/
def State.dualSeizure (s : State) (t : TrunkNo) : State :=
  match (s.trunk t).glare with
  | .priority => s
  | .yield =>
    let s := (s.submit (some t) (.glare (s.trunk t).callRef)).dropTimer t
    let s := s.mapTrunk t fun r => { r with record := none, send := {} }
    (s.carryBack t (.reject .congestion)).incomingSeizure t

/-- R70: the idle signal decoded in FAILED: a trunk that failed by the hold limit recovers. -/
def State.idleSignal (s : State) (t : TrunkNo) : State :=
  if (s.trunk t).state = .failed ∧ (s.trunk t).cause = some .holdLimit then
    (s.mapTrunk t fun r => { r with cause := none }).enterIdle t
  else s

/-- The actions of R37 that are not those of IDLE or OUT-CLEARING. -/
def State.act (s : State) (t : TrunkNo) : LineAction → State
  | .nothing => s
  | .remoteBlocking => s
  | .remoteFlag => s.setRemoteBlock t
  | .remoteUnblocking => s.enterIdle t
  | .incomingSeizure => s
  | .idleSignal => s.idleSignal t
  | .acknowledgement => s.acknowledged t
  | .dualSeizure => s.dualSeizure t
  | .earlyAnswer => s.earlyAnswer t
  | .answer => s.firstAnswer t
  | .clearBack => s.clearedBack t
  | .reAnswer => s.reAnswered t
  | .clearBackBeforeAnswer => s.clearBackBeforeAnswer t
  | .releaseComplete => s
  | .clearForward => s.clearForward t

/-- R45: the ack timer has expired. -/
def State.ackTimedOut (s : State) (t : TrunkNo) : State :=
  let ref := (s.trunk t).callRef
  let s := s.mapTrunk t fun r => { r with cause := some .ackTimeout }
  ((s.endRegisterWork t (.reject .congestion)).endCall true t .ackTimeout).enterFailed t .ackTimeout ref

/-- R56: the release timer has expired. -/
def State.releaseTimedOut (s : State) (t : TrunkNo) : State :=
  let r := s.trunk t
  (s.endCall true t (r.cause.getD .releaseTimeout)).enterFailed t .releaseTimeout r.callRef

/-- R69: a trunk in call fails by the hold limit; the units freed are not yet handed on (R101). -/
def State.failByHoldLimit (s : State) (t : TrunkNo) : State :=
  if (s.trunk t).state.inCall then
    let ref := (s.trunk t).callRef
    let s := (s.stopRegister false t).dissolveForHoldLimit t
    (s.endCall false t .holdLimit).enterFailed t .holdLimit ref
  else s

end Sys2Proof.Machine
end

