-- ==== Sys2Proof/Machine/Decadic.lean ====
section
/-! DEFINITION. The decadic engine (R73 to R87). -/

namespace Sys2Proof.Machine

/-! ### Sending -/

/-- Set a trunk's sending context. -/
def State.setSender (s : State) (t : TrunkNo) (c : DecadicSender) : State :=
  s.mapTrunk t fun r => { r with decadic := some (.sending c) }

/-- R74: the send break timer has expired. -/
def State.breakSent (s : State) (t : TrunkNo) (c : DecadicSender) : State :=
  (s.sendSignal t .fSeize).setSender t
    { c with phase := .making, breaks := c.breaks - 1, timer := some (s.profileOf t).sendMake }

/-- R74: the send make timer has expired: the next break, or the end of the digit. -/
def State.makeSent (s : State) (t : TrunkNo) (c : DecadicSender) : State :=
  if 0 < c.breaks then s.startBreak t c c.breaks
  else
    let sent := (s.trunk t).send.current
    let s := s.mapTrunk t fun r => { r with send := { r.send with pos := r.send.pos + 1 } }
    let s := match sent with
      | some d => s.recordDigit t d
      | none => s
    s.setSender t { c with phase := .pause, timer := some (s.profileOf t).sendPause }

/-- R75: the inter-digit pause has expired. -/
def State.pauseEnded (s : State) (t : TrunkNo) (c : DecadicSender) : State :=
  match (s.trunk t).send.current with
  | some d => s.startBreak t c (digitBreaks d)
  | none =>
    if (s.trunk t).send.endFlag then s.outOutcome t .complete
    else s.setSender t { c with phase := .waiting, timer := some (seconds (s.profileOf t).senderDigitWait) }

/-! ### Receiving -/

/-- Change a trunk's receiving context, where it holds one. -/
def State.mapReceiver (s : State) (t : TrunkNo) (f : DecadicReceiver → DecadicReceiver) : State :=
  s.mapTrunk t fun r =>
    { r with decadic := r.decadic.map fun
        | .receiving c => .receiving (f c)
        | c => c }

/-- The receiving context of a trunk, if it holds one. -/
def Trunk.receiver (r : Trunk) : Option DecadicReceiver :=
  match r.decadic with
  | some (.receiving c) => some c
  | _ => none

/-- R84: the digit wait that follows where the number stands. -/
def State.nextWait (s : State) (t : TrunkNo) : DigitWait :=
  let p := s.profileOf t
  if p.mode = .table ∧ (s.trunk t).standing = some .openNumber then
    { kind := .openNumber, left := seconds p.openNumberWait }
  else { kind := .interDigit, left := seconds p.interDigitWait }

/-- R82: the wait that applied before a rejected digit began. -/
def State.waitAgain (s : State) (t : TrunkNo) : DigitWait :=
  if (s.trunk t).received.digits = [] then
    { kind := .firstDigit, left := seconds (s.profileOf t).firstDigitWait }
  else s.nextWait t

/-- R82: the end of a rejected digit. -/
def State.endRejected (s : State) (t : TrunkNo) : State :=
  s.mapReceiver t fun c => { c with phase := .between, pulses := 0, digitEnd := none, wait := some (s.waitAgain t) }

/-- R82: the report of a distorted digit. -/
def State.reportDistortion (s : State) (t : TrunkNo) : State :=
  match (s.trunk t).lcr.accepted with
  | some code => s.submit (some t) (.lineAnomaly code .digitError)
  | none => s

/-- R82: a distortion found within a digit: the pulse count is discarded and the phase becomes REJECTING. -/
def State.rejectDigit (s : State) (t : TrunkNo) : State :=
  (s.reportDistortion t).mapReceiver t fun c => { c with phase := .rejecting, pulses := 0 }

/-- R81: the digit that a pulse count gives. -/
def pulseDigit (n : Nat) : Option Digit :=
  if h : 1 ≤ n ∧ n ≤ 9 then some ⟨n, by omega⟩ else if n = 10 then some 0 else none

/-- R84: what follows a digit given, by where the number stands. -/
def State.afterDigit (s : State) (t : TrunkNo) : State :=
  match (s.profileOf t).mode, (s.trunk t).standing with
  | .table, some .complete => s.completeIn t
  | .table, some .refused => s.rejectIn t .unobtainable
  | _, _ => s.mapReceiver t fun c => { c with wait := some (s.nextWait t) }

/-- R81: a digit given is stored, relayed and judged. -/
def State.giveDigit (s : State) (t : TrunkNo) (d : Digit) : State :=
  let s := s.mapReceiver t fun c => { c with phase := .between, pulses := 0, digitEnd := none }
  if Config.storeRoom ≤ (s.trunk t).received.digits.length then s.rejectIn t .congestion
  else
    let s := s.storeDigit t d
    match s.overflowing t with
    | some outlet =>
      ((s.dissolve t outlet .overflow (some .congestion)).inOutcome t (.reject .congestion)).forcedClear outlet .overflow
    | none =>
      let s := s.relayDigit t d
      let s := match (s.profileOf t).mode with
        | .host => s.showProgress t
        | .table => s.runAnalysis t
      s.afterDigit t

/-- R81, R82: the make has stood the digit-end make: the digit ends. DEDUCED, safe on runs, log entry 23: a count of 0
is a distortion. -/
def State.endDigit (s : State) (t : TrunkNo) (c : DecadicReceiver) : State :=
  match pulseDigit c.pulses with
  | some d => s.giveDigit t d
  | none => (s.reportDistortion t).endRejected t

/-- R79: a break in BETWEEN begins a new digit; one that finds the number complete or the context gone does not. -/
def State.beginDigit (s : State) (t : TrunkNo) : State :=
  s.mapReceiver t fun c =>
    if c.phase = .between ∧ c.complete = false then
      { c with phase := .counting, pulses := 0, wait := none, digitEnd := none }
    else c

/-- R78, R79, R86: a break handed to a trunk's receiving context or clear watch. DEDUCED, unsafe, log entry 18: a
repeated break changes nothing in the clear watch. -/
def State.handBreak (s : State) (t : TrunkNo) : State :=
  let p := s.profileOf t
  match (s.trunk t).decadic with
  | some (.receiving c) =>
    if c.line = .broken then s
    else
      let s := s.mapReceiver t fun c => { c with line := .broken, since := 0, clearRec := some p.clearRecognition }
      if c.complete then s
      else
        match c.phase with
        | .between => s.beginDigit t
        | .counting =>
          if c.since < p.makeMin then (s.rejectDigit t).mapReceiver t fun c => { c with digitEnd := none }
          else if p.digitEnd ≤ c.since then (s.endDigit t c).beginDigit t
          else s.mapReceiver t fun c => { c with digitEnd := none }
        | .rejecting =>
          if p.digitEnd ≤ c.since then (s.endRejected t).beginDigit t
          else s.mapReceiver t fun c => { c with digitEnd := none }
  | some (.watching w) =>
    if w.line = .broken then s
    else
      s.mapTrunk t fun r =>
        { r with decadic := some (.watching { line := .broken, clearRec := some p.clearRecognition }) }
  | _ => s

/-- R80: a measured break in COUNTING: one pulse, or distortion. -/
def State.judgeBreak (s : State) (t : TrunkNo) (length : Nat) : State :=
  let p := s.profileOf t
  if length < p.breakMin ∨ p.breakMax < length then s.rejectDigit t
  else s.mapReceiver t fun c => { c with pulses := min 255 (c.pulses + 1) }

/-- R78, R80, R83, R86: a make handed to a trunk's receiving context or clear watch. -/
def State.handMake (s : State) (t : TrunkNo) : State :=
  let p := s.profileOf t
  match (s.trunk t).decadic with
  | some (.receiving c) =>
    if c.line = .made then s
    else if c.complete then
      if timerDue c.clearRec then s.clearForward t
      else s.mapReceiver t fun c => { c with line := .made, since := 0, clearRec := none }
    else
      let s := s.mapReceiver t fun c =>
        { c with line := .made, since := 0, clearRec := none, digitEnd := some p.digitEnd }
      if p.clearRecognition ≤ c.since then s.clearForward t
      else if c.phase = .counting then s.judgeBreak t c.since
      else s
  | some (.watching w) =>
    if w.line = .made then s
    else if timerDue w.clearRec then s.clearForward t
    else s.mapTrunk t fun r => { r with decadic := some (.watching { line := .made, clearRec := none }) }
  | _ => s

/-- R84: the digit wait has expired in BETWEEN. -/
def State.digitWaitEnded (s : State) (t : TrunkNo) (kind : DigitWaitKind) : State :=
  let s := s.mapReceiver t fun c => { c with wait := none }
  if kind = .openNumber ∨
      (kind = .interDigit ∧ (s.profileOf t).mode = .host ∧ (s.trunk t).received.digits ≠ []) then
    s.completeIn t
  else s.rejectIn t .digitTimeout

/-! ### Hold -/

/-- R77: at hold start a digit in sending is marked. -/
def DecadicContext.atHoldStart : DecadicContext → DecadicContext
  | .sending c => .sending { c with interrupted := c.phase = .breaking ∨ c.phase = .making }
  | c => c

/-- R77, R87: what a trunk's decadic context does at hold end. -/
def State.decadicHoldEnd (s : State) (t : TrunkNo) : State :=
  match (s.trunk t).decadic with
  | some (.sending c) =>
    if c.interrupted then
      (s.sendSignal t .fSeize).setSender t
        { c with phase := .pause, interrupted := false, timer := some (s.profileOf t).sendPause }
    else if c.phase = .waiting ∧ c.timer = none then
      s.setSender t { c with phase := .pause, timer := some (s.profileOf t).sendPause }
    else s
  | some (.receiving c) =>
    if c.phase = .counting then s.mapReceiver t fun c => { c with phase := .rejecting, pulses := 0 } else s
  | _ => s

end Sys2Proof.Machine
end

