-- ==== Sys2Proof/Machine/Interlock.lean ====
section
/-! DEFINITION. The interlocked tone engine (R120 to R145): what a sender and a receiver do with the recognition and
cessation events of their tone unit, and the expiry of their timers. -/

namespace Sys2Proof.Machine

/-! ### The sender -/

/-- R126, R129: the sender ends: its unit is freed and its outcome is handed to the trunk supervisor. -/
def State.endSender (s : State) (t : TrunkNo) (o : RegOutcome) : State := (s.endTone true t).outOutcome t o

/-- R123, R128: a backward signal recognised in SENDING or WAITING is noted; a forward signal stops. -/
def State.senderRecognised (s : State) (t : TrunkNo) (c : ToneSender) (b : BackwardSignal) : State :=
  if c.phase = .answered then s
  else
    (s.stopSignal t).setTone t
      (.sender { c with phase := .answered, noted := some b, timer := some (s.interlockTimer t) })

/-- R124: the digit answered is acknowledged, and entered in the call record where it had not been before. DEDUCED,
unsafe, log entry 16: a digit is entered once. -/
def State.acknowledgeItem (s : State) (t : TrunkNo) (item : Option SendItem) : State :=
  match item with
  | some (.digit pos) =>
    if (s.trunk t).send.pos ≤ pos then
      let digit := (s.trunk t).send.digits[pos - 1]?
      let s := s.mapTrunk t fun r => { r with send := { r.send with pos := pos + 1 } }
      match digit with
      | some d => s.recordDigit t d
      | none => s
    else s
  | _ => s

/-- R124 to R126: the noted signal has ceased, and the sender acts on it. -/
def State.senderActs (s : State) (t : TrunkNo) (c : ToneSender) : BackwardSignal → State
  | .bt1 => (s.acknowledgeItem t c.item).chooseItem t c
  | .bt2 =>
    match c.lastSent with
    | some pos => s.sendItem t c (.digit pos)
    | none => s.endSender t (.reject .protocol)
  | .bt3 => (s.acknowledgeItem t c.item).sendItem t c .category
  | .bt4 => s.endSender t .complete
  | .bt5 => s.endSender t (.reject .congestion)
  | .bt6 => s.endSender t (.reject .unobtainable)

/-- A cessation event at a sender. -/
def State.senderCeased (s : State) (t : TrunkNo) (c : ToneSender) : State :=
  match c.phase, c.noted with
  | .answered, some b => s.senderActs t c b
  | _, _ => s

/-! ### The receiver -/

/-- R136: a response starts: its signal, RESPONDING and the interlock timer. -/
def State.respond (s : State) (t : TrunkNo) (c : ToneReceiver) (b : BackwardSignal) : State :=
  (s.startSignal t (.backward b)).setTone t
    (.receiver { c with phase := .responding, timer := some (s.interlockTimer t) })

/-- R132: BT3 where a category request is wanted, and otherwise BT1; BT3 sets the category-request mark. -/
def State.respondMore (s : State) (t : TrunkNo) (c : ToneReceiver) (wanted : Bool) : State :=
  if wanted then s.respond t { c with categoryAsked := true } .bt3 else s.respond t c .bt1

/-- R132, R134, R135, R165: a rejection that the receiver chooses as its response; it dissolves the link of an inlet. -/
def State.respondReject (s : State) (t : TrunkNo) (c : ToneReceiver) (cause : Cause) : State :=
  (s.respondOutcome t c (.reject cause)).inletGone t

/-- R132: a category request is wanted after the first digit has been stored. -/
def State.wantsCategory (s : State) (t : TrunkNo) (c : ToneReceiver) : Bool :=
  (s.profileOf t).categoryPolicy == .afterFirstDigit && (s.trunk t).received.digits.length == 1 &&
    !c.categoryAsked && (s.trunk t).received.category.isNone

/-- R132: the response to a digit that has been stored and judged; `wanted` says whether a category request is.
DEDUCED, unsafe, log entry 10: the response starts before the completion is handed to the link. -/
def State.answerDigit (s : State) (t : TrunkNo) (c : ToneReceiver) (wanted : Bool) : State :=
  match (s.profileOf t).mode, (s.trunk t).standing with
  | .table, some .refused => s.respondReject t c .unobtainable
  | .table, some .complete =>
    match (s.trunk t).outlet with
    | some outlet => (s.respondMore t { c with complete := true } wanted).completeInlet t outlet
    | none =>
      if wanted then
        s.respondMore t { c with pending := some { outcome := .complete, own := true } } true
      else s.respondOutcome t c .complete
  | _, _ => s.respondMore t c wanted

/-- R132: a recognised digit. -/
def State.receiveDigit (s : State) (t : TrunkNo) (c : ToneReceiver) (d : Digit) : State :=
  if c.complete ∧ (s.trunk t).outlet.isSome then s.respond t c .bt1
  else if Config.storeRoom ≤ (s.trunk t).received.digits.length then s.respondReject t c .congestion
  else
    let s := s.storeDigit t d
    match s.overflowing t with
    | some outlet =>
      ((s.dissolve t outlet .overflow (some .congestion)).respondOutcome t c (.reject .congestion)).forcedClear outlet
        .overflow
    | none =>
      let wanted := s.wantsCategory t c
      let s := s.relayDigit t d
      let s := match (s.profileOf t).mode with
        | .host => s.showProgress t
        | .table => s.runAnalysis t
      s.answerDigit t c wanted

/-- R133: a category is stored and entered in the call record; in HOST mode it is shown to the host. -/
def State.storeCategory (s : State) (t : TrunkNo) (k : Category) : State :=
  let s := s.mapTrunk t fun r =>
    { r with
      received := { r.received with category := some k }
      record := r.record.map fun x => { x with category := some k } }
  if (s.profileOf t).mode = .host then s.showProgress t else s

/-- R134, R141, R142: the end of number. DEDUCED, unsafe, log entry 12: on a relay inlet whose number-complete mark is
set it is held by R142, also where no digit is stored. -/
def State.receiveEnd (s : State) (t : TrunkNo) (c : ToneReceiver) : State :=
  let s := s.mapTrunk t fun r => { r with received := { r.received with endReceived := true } }
  let held : ToneReceiver := { c with phase := .held, heldCeased := false, timer := none }
  match (s.trunk t).outlet with
  | some outlet =>
    if c.complete then s.setTone t (.receiver held)
    else if (s.trunk t).received.digits = [] then s.respondReject t c .protocol
    else (s.setTone t (.receiver { held with complete := true })).completeInlet t outlet
  | none =>
    if (s.trunk t).received.digits = [] then s.respondReject t c .protocol
    else
      match (s.profileOf t).mode with
      | .table => s.respondOutcome t c .complete
      | .host =>
        (s.setTone t
          (.receiver { held with
            timer := some { kind := .hostDecision, left := seconds (s.profileOf t).hostDecision } })).showProgress t

/-- R120: what a forward signal carries. -/
inductive ForwardMeaning where
  | digit (d : Digit)
  | category (k : Category)
  | endOfNumber
  | unassigned
deriving DecidableEq, Repr

/-- R120 -/
def ForwardSignal.meaning : ForwardSignal → ForwardMeaning
  | .ft1 => .digit 1
  | .ft2 => .digit 2
  | .ft3 => .digit 3
  | .ft4 => .digit 4
  | .ft5 => .digit 5
  | .ft6 => .digit 6
  | .ft7 => .digit 7
  | .ft8 => .digit 8
  | .ft9 => .digit 9
  | .ft10 => .digit 0
  | .ft11 => .endOfNumber
  | .ft12 => .category .ordinary
  | .ft13 => .category .priority
  | .ft14 => .category .test
  | .ft15 => .unassigned

/-- R131: a forward signal recognised in LISTENING is answered; in any other phase it is discarded. DEDUCED, unsafe, log
entry 28: an FT11 that answers a pending outcome does not reach R134 and leaves the end-received mark clear. -/
def State.receiverRecognised (s : State) (t : TrunkNo) (c : ToneReceiver) (f : ForwardSignal) : State :=
  if c.phase ≠ .listening then s
  else
    let c := { c with timer := none }
    match c.pending, f.meaning with
    | some p, .category k => (s.storeCategory t k).respondOutcome t c p.outcome
    | some p, _ => s.respondOutcome t c p.outcome
    | none, .digit d => s.receiveDigit t c d
    | none, .category k => (s.storeCategory t k).respond t c .bt1
    | none, .endOfNumber => s.receiveEnd t c
    | none, .unassigned => s.respondReject t c .protocol

/-- R136: the digit wait that now applies in LISTENING. -/
def State.listenWait (s : State) (t : TrunkNo) (c : ToneReceiver) : Option ToneTimer :=
  let p := s.profileOf t
  if c.complete then none
  else if p.mode = .table ∧ (s.trunk t).standing = some .openNumber then
    some { kind := .openNumber, left := seconds p.openNumberWait }
  else some { kind := .interDigit, left := seconds p.interDigitWait }

/-- R136, R139, R141: the forward signal has ceased. -/
def State.receiverCeased (s : State) (t : TrunkNo) (c : ToneReceiver) : State :=
  match c.phase with
  | .responding =>
    let s := s.stopSignal t
    match c.pending with
    | some { outcome := o, own := false } => s.pulseOutcome t c o
    | _ => s.setTone t (.receiver { c with phase := .listening, timer := s.listenWait t c })
  | .final => s.endTone true t
  | .held => s.setTone t (.receiver { c with heldCeased := true })
  | .listening => s
  | .pulsing => s

/-- R137: the outcome that the expiry of a digit wait gives. -/
def State.waitOutcome (s : State) (t : TrunkNo) (kind : ToneTimerKind) : RegOutcome :=
  if kind = .openNumber ∨ ((s.profileOf t).mode = .host ∧ (s.trunk t).received.digits ≠ []) then .complete
  else .reject .digitTimeout

/-- R137, R142, R165: a digit wait has expired in LISTENING. -/
def State.receiverWaitEnded (s : State) (t : TrunkNo) (c : ToneReceiver) (kind : ToneTimerKind) : State :=
  let c := { c with timer := none }
  match c.pending with
  | some p => s.pulseOutcome t c p.outcome
  | none =>
    match s.waitOutcome t kind, (s.trunk t).outlet with
    | .complete, some outlet => (s.setTone t (.receiver { c with complete := true })).completeInlet t outlet
    | .complete, none => s.pulseOutcome t c .complete
    | .reject cause, _ => (s.inletGone t).pulseOutcome t c (.reject cause)

/-- R136: the interlock timer has expired at the receiver. -/
def State.receiverInterlockEnded (s : State) (t : TrunkNo) (c : ToneReceiver) : State :=
  let s := s.endTone true t
  if c.phase = .responding then s.rejectIn t .protocol else s

/-! ### Events of a tone unit -/

/-- R113, R114: an event of a unit reaches the context of the trunk that holds it. -/
def State.toneEvent (s : State) (t : TrunkNo) (e : ToneEvent) : State :=
  match (s.trunk t).tone, e with
  | some (.sender c), .recognised (.backward b) => s.senderRecognised t c b
  | some (.sender c), .ceased _ => s.senderCeased t c
  | some (.receiver c), .recognised (.forward f) => s.receiverRecognised t c f
  | some (.receiver c), .ceased _ => s.receiverCeased t c
  | _, _ => s

/-- R111 to R115: a block of a SIGNALLING unit is decided, and the event it makes is handed on. -/
def State.decideUnitBlock (s : State) (u : UnitNo) (t : TrunkNo) (role : UnitRole) (b : EndedBlock) : State :=
  let (recognition, event) :=
    (s.unit u).recognition.decide (decideBlock role (s.profileOf t).minAmplitude b)
  let s := s.mapUnit u fun k => { k with recognition := recognition }
  match event with
  | some e => s.toneEvent t e
  | none => s

/-- R97, R118: a block of a MEASURING unit; the last one ends the measurement with status DONE. -/
def State.measureBlock (s : State) (u : UnitNo) (t : TrunkNo) (asked done : Nat) (b : EndedBlock) : State :=
  let s := s.mapUnit u fun k => { k.addBlock b with status := .measuring t asked (done + 1) }
  if asked ≤ done + 1 then (s.reportMeasurement u t .done (done + 1)).freeUnit true u else s

/-- R10, R97, R111: the tone block event of a unit whose block has ended; in hold the block is discarded. -/
def State.blockEnded (s : State) (u : UnitNo) (b : EndedBlock) : State :=
  let s := s.mapUnit u fun k => { k with ended := none }
  if s.inHold then s
  else
    match (s.unit u).status with
    | .free => s
    | .signalling t role => s.decideUnitBlock u t role b
    | .measuring t asked done => s.measureBlock u t asked done b

end Sys2Proof.Machine
end

