-- ==== Sys2Proof/Machine/LineEvents.lean ====
section
/-! DEFINITION. The line-code receivers (R14 to R17), the decoding of accepted codes in every state (R36, R37), and hold
start, hold end and the hold limit as the highway interface tells them to every block (R10 to R12). -/

namespace Sys2Proof.Machine

/-! ### Decoding -/

/-- R36: the states in which a DECADIC trunk's F-SEIZE and F-CLEAR are handed to the decadic engine. -/
def TrunkState.watchesBreaks : TrunkState → Bool
  | .inSelecting | .inWaitAnswer | .inAnswered | .inClearback | .inRejected => true
  | _ => false

/-- R36, R37: decode a trunk's accepted code and carry out the action. DEDUCED, unsafe, log entry 21: a standing
remote-block flag is cleared first. -/
def State.decodeLine (s : State) (t : TrunkNo) : State :=
  match (s.trunk t).state with
  | .idle => s.decodeIdle t
  | .outClearing => s.decodeClearing t
  | st =>
    match s.decoded t with
    | none => s
    | some (code, none) => s.lineAnomaly t code
    | some (_, some (sig, action)) =>
      let s := s.noteIdle t sig
      if st.watchesBreaks ∧ (s.profileOf t).method = .decadic then
        if sig = .fClear then s.handBreak t else s.handMake t
      else s.act t action

/-! ### Line-code receivers -/

/-- R15: the persistence of a filter mode. -/
def Profile.persistence (p : Profile) : FilterMode → Nat
  | .line => p.linePersistence
  | .pulse => p.pulsePersistence

/-- R14: the candidate that a received code leaves. -/
def LineReceiver.nextCandidate (l : LineReceiver) (code : LineCode) : Option Candidate :=
  if l.accepted = some code then none
  else
    match l.candidate with
    | some k => if k.code = code then some { k with count := k.count + 1 } else some { code := code, count := 1 }
    | none => some { code := code, count := 1 }

/-- R14, R15: a received code reaches its persistence and is accepted. -/
def LineReceiver.accepts (l : LineReceiver) (p : Profile) (code : LineCode) : Bool :=
  match l.nextCandidate code with
  | some k => p.persistence l.mode ≤ k.count
  | none => false

/-- R14, R17: a trunk's receiver takes its code of a taken frame; an accepted code is given to the trunk supervisor. -/
def State.takeCode (s : State) (t : TrunkNo) (code : LineCode) : State :=
  let r := s.trunk t
  if r.role = .unequipped then s
  else if r.lcr.accepts (s.profileOf t) code then
    (s.mapTrunk t fun r => { r with lcr := { r.lcr with accepted := some code, candidate := none } }).decodeLine t
  else s.mapTrunk t fun r => { r with lcr := { r.lcr with candidate := r.lcr.nextCandidate code } }

/-- R8: the 32 codes of a taken frame go to the line-code receivers, T0 first. DEDUCED, unsafe, log entry 7: T0 first,
each accepted code acted on at once. -/
def State.takeFrame (s : State) (f : SigFrame) : State := s.forTrunks fun s t => s.takeCode t (frameCode f t)

/-! ### Hold -/

/-- R16, R77, R115: what the line-code receivers, decadic contexts and tone units do at hold start. -/
def State.tellHoldStart (s : State) : State :=
  let s : State := { s with
    trunks := s.trunks.map fun r =>
      { r with lcr := { r.lcr with candidate := none }, decadic := r.decadic.map DecadicContext.atHoldStart }
    units := s.units.map fun u => { u with recognition := u.recognition.atHoldStart } }
  s.abortMeasurements

/-- R10: entry to HOLD. -/
def State.startHold (s : State) (cause : HoldCause) : State :=
  let s : State := { s with
    hwi := { s.hwi with
      alignment := .hold, correct := 0, wrong := 0, holdStart := some s.tmb.counter,
      holdTimer := some { spent := 0, left := 100 * s.hwi.holdLimit } } }
  ((s.submit none (.holdStart cause)).capture .holdStart none).tellHoldStart

/-- R77, R87, R101: what the decadic engine and the pool do at hold end; every timer counts on from now (R5). -/
def State.tellHoldEnd (s : State) : State := (s.forTrunks State.decadicHoldEnd).serveTests

/-- R11: the end of a hold; the duration is taken modulo 2^32. -/
def State.endHold (s : State) : State :=
  let start := s.hwi.holdStart.getD s.tmb.counter
  let s : State := { s with
    hwi := { s.hwi with
      alignment := .aligned, correct := 0, wrong := 0, holdStart := none, holdTimer := none } }
  (s.submit none (.holdEnd (s.tmb.counter - start))).tellHoldEnd

/-- R12, R69, R101: the hold limit has expired. -/
def State.hitHoldLimit (s : State) : State :=
  let s := s.capture .holdLimit none
  let s : State := { s with
    trunks := s.trunks.map fun r => { r with lcr := { r.lcr with accepted := none, candidate := none } }
    hwi := { s.hwi with
      alignment := .searching, trial := false, correct := 0, wrong := 0, holdStart := none, holdTimer := none } }
  (s.forTrunks State.failByHoldLimit).serveTests

end Sys2Proof.Machine
end

