-- ==== Sys2Proof/Machine/Clock.lean ====
section
/-! DEFINITION. The events of frame sync, the time base and the highways: FS_EDGE, FS_LOSS, MILLISECOND_EVENT,
TRANSMIT_FRAME_EVENT, DURATION_TICK, HUNT_ALIGNMENT_WORD, RECEIVED_FRAME_EVENT, HOLD_ALIGNMENT_WORD,
HOLD_LIMIT_EXPIRY, SAMPLE_EVENT and ATTN_HOLD_TIME_REACHED. An event of the unit's own that the state does not make
leaves the state as it is (log entry 2). -/

namespace Sys2Proof.Machine

/-- The answer of a command's meaning. -/
abbrev Answer := Host.Outcome State Fault Refusal

/-! ### Frame sync -/

/-- R2, R3: an FS edge; where FS was absent it ends the loss and the source becomes HIGHWAY. DESIGN CHOICE, unsafe,
log entry 5: positions inside a millisecond are left out. -/
def execFsEdge (s : State) : Answer :=
  .next { s with tmb := { s.tmb with fsPresent := true, source := .highway } }

/-- R9: what FS loss does to the signalling alignment. -/
def State.alignmentFsLoss (s : State) : State :=
  match s.hwi.alignment with
  | .aligned => s.startHold .fsLoss
  | .searching => { s with hwi := { s.hwi with trial := false, correct := 0 } }
  | .hold => { s with hwi := { s.hwi with correct := 0 } }

/-- R2, R3, R9: FS loss; while FS is absent there is no edge to miss. -/
def execFsLoss (s : State) : Answer :=
  if s.tmb.fsPresent then
    .next ({ s with tmb := { s.tmb with fsPresent := false, source := .crystal } }).alignmentFsLoss
  else .next s

/-! ### The millisecond event -/

/-- R5: one millisecond event of a running timer. -/
def countDown (left : Nat) : Nat := left - 1

/-- R5: one millisecond event of a decadic context; a measured break or make counts on (R78). -/
def DecadicContext.tick : DecadicContext → DecadicContext
  | .sending c => .sending { c with timer := c.timer.map countDown }
  | .receiving c =>
    .receiving { c with
      since := c.since + 1
      wait := c.wait.map fun w => { w with left := countDown w.left }
      digitEnd := c.digitEnd.map countDown
      clearRec := c.clearRec.map countDown }
  | .watching c => .watching { c with clearRec := c.clearRec.map countDown }

/-- R5: one millisecond event of an interlocked tone engine context. -/
def ToneContext.tick : ToneContext → ToneContext
  | .sender c => .sender { c with timer := c.timer.map fun k => { k with left := countDown k.left } }
  | .receiver c => .receiver { c with timer := c.timer.map fun k => { k with left := countDown k.left } }

/-- R5: one millisecond event of a trunk's timers. -/
def Trunk.tick (r : Trunk) : Trunk :=
  { r with
    timer := r.timer.map fun k => { k with left := countDown k.left }
    decadic := r.decadic.map DecadicContext.tick
    tone := r.tone.map ToneContext.tick }

/-- R5, R10: the timers that hold suspends. -/
def State.tickTimers (s : State) : State :=
  { s with
    trunks := s.trunks.map Trunk.tick
    callQueue := s.callQueue.map fun e => { e with left := countDown e.left }
    testQueue := s.testQueue.map fun e => { e with left := countDown e.left } }

/-- R12: the hold limit timer counts in HOLD. -/
def Highway.tick (h : Highway) : Highway :=
  { h with holdTimer := h.holdTimer.map fun k => { spent := k.spent + 1, left := countDown k.left } }

/-- R3, R4: the counter and the dividers. -/
def TimeBase.tick (b : TimeBase) : TimeBase :=
  { b with
    counter := b.counter + 1
    frameDiv := (b.frameDiv + 1) % 2
    tickDiv := (b.tickDiv + 1) % 10
    frameDue := b.frameDue || b.frameDiv + 1 == 2
    tickDue := b.tickDue || b.tickDiv + 1 == 10 }

/-- R192: the arrival ages of the queued reports. -/
def ReportQueue.tick (q : ReportQueue) : ReportQueue :=
  { q with entries := q.entries.map fun e => { e with age := e.age + 1 } }

/-- R3, R4, R5, R10, R12, R192, R195: a millisecond event. Expiries are taken by their own events. -/
def execMillisecondEvent (s : State) : Answer :=
  let s := if s.inHold then s else s.tickTimers
  let s : State := { s with tmb := s.tmb.tick, hwi := s.hwi.tick }
  .next (s.withReports s.rqa.tick)

/-- R195: ATTN is pulled low where the oldest entry's age has reached the hold time. -/
def execAttnHoldTimeReached (s : State) : Answer := .next (s.withReports s.rqa)

/-! ### The transmit frame event and the duration tick -/

/-- R1: the signalling frame of the sent codes. -/
def State.sentFrame (s : State) : SigFrame := frameOf (s.trunks.toList.map (·.sentCode))

/-- R1, R4: the transmit frame event that the divider has made. -/
def execTransmitFrameEvent (s : State) : Answer :=
  if s.tmb.frameDue then .next { s with tmb := { s.tmb with frameDue := false }, sgtx := some s.sentFrame }
  else .next s

/-- R173: conversation is counted at this tick. -/
def State.countsConversation (s : State) (t : TrunkNo) : Bool :=
  ((s.trunk t).state == .outAnswered || (s.trunk t).state == .inAnswered) &&
    (!s.inHold || (s.profileOf t).holdCount)

/-- R173: the durations of an open record at a tick. -/
def CallRecord.tick (conversing : Bool) (r : CallRecord) : CallRecord :=
  { r with
    occupancy := min Config.durationMax (r.occupancy + 1)
    conversation := if conversing then min Config.durationMax (r.conversation + 1) else r.conversation }

/-- R173, R176: a tick at one trunk: its open record, and its group's OCCUPANCY. -/
def State.tickRecord (s : State) (t : TrunkNo) : State :=
  if (s.trunk t).record.isSome then
    let conversing := s.countsConversation t
    (s.mapRecord t (CallRecord.tick conversing)).countFor t fun c => { c with occupancy := countUp c.occupancy 1 }
  else s

/-- R4, R173, R176: the duration tick that the divider has made. -/
def execDurationTick (s : State) : Answer :=
  if s.tmb.tickDue then .next (({ s with tmb := { s.tmb with tickDue := false } }).forTrunks State.tickRecord)
  else .next s

/-! ### Signalling alignment -/

/-- R7, R8: the third consecutive correct word of a trial: ALIGNED, and the frame is taken. -/
def State.align (s : State) (f : SigFrame) : State :=
  ({ s with hwi := { s.hwi with alignment := .aligned, trial := false, correct := 0, wrong := 0 } }).takeFrame f

/-- R7: the eight bits after an FS edge are examined, or a check of the running trial is made. -/
def execHuntAlignmentWord (frame : SigFrame) (s : State) : Answer :=
  if s.hwi.alignment = .searching ∧ s.tmb.fsPresent = true then
    if frameWord frame = alignmentWord then
      if s.hwi.trial = true ∧ 3 ≤ s.hwi.correct + 1 then .next (s.align frame)
      else
        .next { s with
          hwi := { s.hwi with trial := true, correct := if s.hwi.trial then s.hwi.correct + 1 else 1 } }
    else .next { s with hwi := { s.hwi with trial := false, correct := 0 } }
  else .next s

/-- R8: a signalling frame at the received frame position, in ALIGNED. -/
def execReceivedFrameEvent (frame : SigFrame) (s : State) : Answer :=
  if s.hwi.alignment = .aligned ∧ s.tmb.fsPresent = true then
    if frameWord frame = alignmentWord then .next (({ s with hwi := { s.hwi with wrong := 0 } }).takeFrame frame)
    else if s.hwi.wrong + 1 < 4 then .next { s with hwi := { s.hwi with wrong := s.hwi.wrong + 1 } }
    else .next (s.startHold .alignment)
  else .next s

/-- R11: a signalling frame at the received frame position, in HOLD. The hold ends before the frame is taken (log
entry 8). DEDUCED, unsafe, log entry 8. -/
def execHoldAlignmentWord (frame : SigFrame) (s : State) : Answer :=
  if s.hwi.alignment = .hold ∧ s.tmb.fsPresent = true then
    if frameWord frame = alignmentWord then
      if s.hwi.correct + 1 < 3 then .next { s with hwi := { s.hwi with correct := s.hwi.correct + 1 } }
      else .next (s.endHold.takeFrame frame)
    else .next { s with hwi := { s.hwi with correct := 0 } }
  else .next s

/-- R12: the hold limit timer has expired. -/
def Highway.limitDue (h : Highway) : Bool := timerDue (h.holdTimer.map (·.left))

/-- R12, R69, R101: the hold limit timer's expiry is taken. -/
def execHoldLimitExpiry (s : State) : Answer :=
  if s.inHold ∧ s.hwi.limitDue = true then .next s.hitHoldLimit else .next s

/-! ### The speech path -/

/-- The signal that a trunk's unit generates, if the trunk holds one for signalling. -/
def State.generating (s : State) (t : TrunkNo) : Option Generation :=
  (s.trunk t).unit.bind fun h => (s.unit h.unit).generation

/-- The speech path modes (R18). -/
inductive SpeechMode where
  | tone (g : Generation)
  | silence
  | pass
deriving DecidableEq, Repr

/-- R18: the speech path mode of a trunk at a sample event. -/
def State.speechMode (s : State) (t : TrunkNo) : SpeechMode :=
  match s.generating t with
  | some g => .tone g
  | none =>
    if ((s.trunk t).state = .outSelecting ∨ (s.trunk t).state = .inSelecting) ∧ (s.profileOf t).method = .tone then
      .silence
    else .pass

/-- R2, R19: the sample read from a highway from the line or the switch: silence while FS is absent. -/
def State.heard (s : State) (x : Byte) : Byte := if s.tmb.fsPresent then x else 0

/-- R18: the LTX sample of a timeslot. -/
def State.ltxSample (s : State) (swx : Vector Byte 32) (t : TrunkNo) : Byte :=
  match s.speechMode t with
  | .tone g => g.code
  | .silence => 0
  | .pass => s.heard (swx.get t)

/-- The trunk that a unit is assigned to (R19). -/
def UnitStatus.trunk : UnitStatus → Option TrunkNo
  | .free => none
  | .signalling t _ => some t
  | .measuring t _ _ => some t

/-- R19, R116: a sample event at a tone unit: it takes its trunk's LRX sample, and a generation count goes on. -/
def State.sampleUnit (s : State) (lrx : Vector Byte 32) (u : ToneUnit) : ToneUnit :=
  match u.status.trunk with
  | none => u
  | some t =>
    { u.takeSample (s.heard (lrx.get t)) with generation := u.generation.map fun g => { g with n := g.n + 1 } }

/-- R4, R18, R19: a sample event. DESIGN CHOICE, safe, log entry 13: LTX keeps what was last sent. -/
def execSampleEvent (lrx swx : Vector Byte 32) (s : State) : Answer :=
  .next { s with
    ltx := some (Vector.ofFn fun t => s.ltxSample swx t)
    units := s.units.map (s.sampleUnit lrx) }

/-- R4, R111: the tone block event of a unit; it comes only where a block of the unit has ended. DESIGN CHOICE,
unsafe, log entry 15. -/
def execToneBlockEvent (u : UnitNo) (s : State) : Answer :=
  match (s.unit u).ended with
  | some b => .next (s.blockEnded u b)
  | none => .next s

end Sys2Proof.Machine
end

