-- ==== Sys2Proof/Machine/Expiries.lean ====
section
/-! DEFINITION. The expiries of the unit's timers, each as its own command (R45, R51, R53, R56, R62, R74, R75, R81 to
R84, R86, R93, R96, R127, R129, R136, R137, R140, R141). A timer expires when no millisecond event is left to it and
suspension is not in force (R5); otherwise the command leaves the state as it is (log entries 2 and 4). -/

namespace Sys2Proof.Machine

/-! ### Supervision timers -/

/-- R5, R34: a supervision timer of a trunk has expired in the state that started it. DEDUCED, unsafe, log entry 4:
none expires in HOLD. -/
def State.supervisionDue (s : State) (t : TrunkNo) (kind : SupervisionKind) (st : TrunkState) : Bool :=
  !s.inHold && (s.trunk t).timer == some { kind := kind, left := 0 } && (s.trunk t).state == st

/-- R45 -/
def execAckTimerExpiry (t : TrunkNo) (s : State) : Answer :=
  .next (if s.supervisionDue t .ack .outSeizing then s.ackTimedOut t else s)

/-- R50, R51 -/
def execAnswerWaitExpiry (t : TrunkNo) (s : State) : Answer :=
  .next (if s.supervisionDue t .answerWait .outWaitAnswer then s.forcedClear t .noAnswer else s)

/-- R50, R53 -/
def execClearBackTimerExpiry (t : TrunkNo) (s : State) : Answer :=
  .next (if s.supervisionDue t .clearBack .outClearback then s.forcedClear t .clearbackTimeout else s)

/-- R56 -/
def execReleaseTimerExpiry (t : TrunkNo) (s : State) : Answer :=
  .next (if s.supervisionDue t .release .outClearing then s.releaseTimedOut t else s)

/-- R62 -/
def execGuardTimerExpiry (t : TrunkNo) (s : State) : Answer :=
  .next (if s.supervisionDue t .guard .inGuard then s.finishCall t else s)

/-! ### The decadic engine's timers -/

/-- A trunk's sending context whose timer has expired in a phase. -/
def State.senderDue (s : State) (t : TrunkNo) (phase : SendPhase) : Option DecadicSender :=
  match (s.trunk t).decadic with
  | some (.sending c) => if !s.inHold ∧ c.phase = phase ∧ timerDue c.timer then some c else none
  | _ => none

/-- R74 -/
def execSendBreakExpiry (t : TrunkNo) (s : State) : Answer :=
  .next (match s.senderDue t .breaking with
    | some c => s.breakSent t c
    | none => s)

/-- R74 -/
def execSendMakeExpiry (t : TrunkNo) (s : State) : Answer :=
  .next (match s.senderDue t .making with
    | some c => s.makeSent t c
    | none => s)

/-- R75 -/
def execPauseTimerExpiry (t : TrunkNo) (s : State) : Answer :=
  .next (match s.senderDue t .pause with
    | some c => s.pauseEnded t c
    | none => s)

/-- R75 -/
def execDecadicSenderDigitWait (t : TrunkNo) (s : State) : Answer :=
  .next (match s.senderDue t .waiting with
    | some _ => s.outOutcome t (.reject .digitTimeout)
    | none => s)

/-- A trunk's receiving context, where suspension is not in force. -/
def State.receiverRunning (s : State) (t : TrunkNo) : Option DecadicReceiver :=
  if s.inHold then none else (s.trunk t).receiver

/-- R81, R82: what the expiry of the digit-end timer does. -/
def State.digitEndExpired (s : State) (t : TrunkNo) (c : DecadicReceiver) : State :=
  match c.phase with
  | .counting => s.endDigit t c
  | .rejecting => s.endRejected t
  | .between => s

/-- R81, R82 -/
def execDigitEndTimerExpiry (t : TrunkNo) (s : State) : Answer :=
  .next (match s.receiverRunning t with
    | some c => if timerDue c.digitEnd then s.digitEndExpired t c else s
    | none => s)

/-- The clear-recognition timer of a trunk's receiving context or clear watch. -/
def Trunk.clearRecognition (r : Trunk) : Option Nat :=
  match r.decadic with
  | some (.receiving c) => c.clearRec
  | some (.watching w) => w.clearRec
  | _ => none

/-- R83, R86 -/
def execClearRecognitionExpiry (t : TrunkNo) (s : State) : Answer :=
  .next (if !s.inHold ∧ timerDue (s.trunk t).clearRecognition then s.clearForward t else s)

/-- R84 -/
def execDecadicDigitWaitExpiry (t : TrunkNo) (s : State) : Answer :=
  .next (match (s.receiverRunning t).bind fun c => if c.phase = .between then c.wait else none with
    | some w => if w.left = 0 then s.digitWaitEnded t w.kind else s
    | none => s)

/-! ### The wait queues -/

/-- R93: the entry of a trunk in the call wait queue whose wait timer has expired. -/
def State.callWaitDue (s : State) (t : TrunkNo) : Option CallWait :=
  if s.inHold then none else s.callQueue.find? fun e => e.trunk == t && e.left == 0

/-- R93, R164, R165: the entry is removed and NO-UNIT is handed up. -/
def State.callWaitEnded (s : State) (e : CallWait) : State :=
  match e.role with
  | .sender => (s.leaveQueue e.trunk).outOutcome e.trunk (.reject .noUnit)
  | .receiver => (s.leaveQueue e.trunk).rejectIn e.trunk .noUnit

/-- R93 -/
def execCallWaitExpiry (t : TrunkNo) (s : State) : Answer :=
  .next (match s.callWaitDue t with
    | some e => s.callWaitEnded e
    | none => s)

/-- R96: the request of a trunk in the test wait queue whose wait timer has expired. -/
def State.testWaitDue (s : State) (t : TrunkNo) : Bool :=
  !s.inHold && s.testQueue.any fun r => r.trunk == t && r.left == 0

/-- R96: the request is removed with a TEST-RESULT report, status NO-UNIT and 0 blocks done. -/
def State.testWaitEnded (s : State) (t : TrunkNo) : State :=
  (s.withTestQueue (s.testQueue.filter fun r => r.trunk != t)).submit (some t) (.testResult .noUnit 0 none)

/-- R96 -/
def execTestWaitExpiry (t : TrunkNo) (s : State) : Answer :=
  .next (if s.testWaitDue t then s.testWaitEnded t else s)

/-! ### The interlocked tone engine's timers -/

/-- A trunk's sender context, with the timer that has expired. -/
def State.toneSenderDue (s : State) (t : TrunkNo) (kind : ToneTimerKind) : Option ToneSender :=
  match (s.trunk t).tone with
  | some (.sender c) => if !s.inHold ∧ c.timer = some { kind := kind, left := 0 } then some c else none
  | _ => none

/-- A trunk's receiver context, with the timer that has expired. -/
def State.toneReceiverDue (s : State) (t : TrunkNo) (kind : ToneTimerKind) : Option ToneReceiver :=
  match (s.trunk t).tone with
  | some (.receiver c) => if !s.inHold ∧ c.timer = some { kind := kind, left := 0 } then some c else none
  | _ => none

/-- R127 -/
def execSenderDigitWaitExpiry (t : TrunkNo) (s : State) : Answer :=
  .next (match s.toneSenderDue t .senderWait with
    | some _ => s.endSender t (.reject .digitTimeout)
    | none => s)

/-- R129 -/
def execSenderInterlockExpiry (t : TrunkNo) (s : State) : Answer :=
  .next (match s.toneSenderDue t .interlock with
    | some _ => s.endSender t (.reject .interlockTimeout)
    | none => s)

/-- R136 -/
def execReceiverInterlockExpiry (t : TrunkNo) (s : State) : Answer :=
  .next (match s.toneReceiverDue t .interlock with
    | some c => s.receiverInterlockEnded t c
    | none => s)

/-- R137: the digit wait that has expired at a receiver in LISTENING. -/
def State.toneWaitDue (s : State) (t : TrunkNo) : Option (ToneReceiver × ToneTimerKind) :=
  match s.toneReceiverDue t .interDigit, s.toneReceiverDue t .openNumber with
  | some c, _ => if c.phase = .listening then some (c, .interDigit) else none
  | none, some c => if c.phase = .listening then some (c, .openNumber) else none
  | none, none => none

/-- R137 -/
def execReceiverDigitWaitExpiry (t : TrunkNo) (s : State) : Answer :=
  .next (match s.toneWaitDue t with
    | some (c, kind) => s.receiverWaitEnded t c kind
    | none => s)

/-- R140: the pulse ends, and the unit is freed. -/
def execPulseTimerExpiry (t : TrunkNo) (s : State) : Answer :=
  .next (match s.toneReceiverDue t .pulse with
    | some _ => s.endTone true t
    | none => s)

/-- R141: the host decision wait expires in HELD; the outcome is a rejection with cause CONGESTION. -/
def execHostDecisionWaitExpiry (t : TrunkNo) (s : State) : Answer :=
  .next (match s.toneReceiverDue t .hostDecision with
    | some c => s.outsideOutcome t { c with timer := none } (.reject .congestion)
    | none => s)

end Sys2Proof.Machine
end

