-- ==== Sys2Proof/Machine/Replies.lean ====
section
/-! DEFINITION. Replies (R186): the status codes, the reply frame, and the checks that the trunk commands share
(R39). -/

namespace Sys2Proof.Machine

/-- The status of a reply (R186). -/
inductive Status where
  | ok
  | okClamped
  | badFrame
  | unknownType
  | badLength
  | badValue
  | badState
  | noRoom
  | notEquipped
deriving DecidableEq, Repr

/-- R186 -/
def Status.code : Status → Nat
  | .ok => 0
  | .okClamped => 1
  | .badFrame => 2
  | .unknownType => 3
  | .badLength => 4
  | .badValue => 5
  | .badState => 6
  | .noRoom => 7
  | .notEquipped => 8

/-- The sum of characters modulo 256 (R183). -/
def checkSum (cs : List Byte) : Byte := cs.foldl (· + ·) 0

/-- R183, R186: the CHECK that makes the sum 0. -/
def checkOf (cs : List Byte) : Byte := -checkSum cs

/-- R186: the status byte. -/
def statusByte (overrun : Bool) (status : Status) : Byte := byte (status.code + if overrun then 128 else 0)

/-- R186: the characters of a reply as they are sent on RPL, header first; the header's marker is 1 and every other
marker 0 (R178). -/
def replyFrame (address : BitVec 5) (type_ : Byte) (status : Byte) (data : List Byte) : List CharBits :=
  let body := [byte (2 + data.length), type_ ||| 0x80, status] ++ data
  charBits (byte (0x80 + address.toNat)) true :: (body ++ [checkOf body]).map fun x => charBits x false

/-- R185, R186: the reply to a command is formed and sent; the unit holds the command, and the overrun flag is cleared
as the status byte is formed. DESIGN CHOICE, unsafe, log entry 6: it replaces a reply that is still held. -/
def State.sendReply (s : State) (type_ : Byte) (status : Status) (data : List Byte) : State :=
  { s with
    clk := { s.clk with
      reply := some (replyFrame s.clk.address type_ (statusByte s.clk.overrun status) data)
      overrun := false } }

/-- A command that is refused: nothing changes but for the reply, which carries no data (R186). -/
def State.refuse (s : State) (type_ : Byte) (status : Status) : State := s.sendReply type_ status []

/-- A command accepted with a reply that carries no data. -/
def State.accept (s : State) (type_ : Byte) : State := s.sendReply type_ .ok []

/-! ### The message types (R184) -/

/-- R184 -/
def setProfileType : Byte := 0x01
/-- R184 -/
def getProfileType : Byte := 0x02
/-- R184 -/
def setTrunkType : Byte := 0x03
/-- R184 -/
def setAnalysisType : Byte := 0x04
/-- R184 -/
def getAnalysisType : Byte := 0x05
/-- R184 -/
def setReportingType : Byte := 0x06
/-- R184 -/
def seizeType : Byte := 0x10
/-- R184 -/
def addDigitsType : Byte := 0x11
/-- R184 -/
def acceptDigitsType : Byte := 0x12
/-- R184 -/
def answerType : Byte := 0x13
/-- R184 -/
def clearBackType : Byte := 0x14
/-- R184 -/
def releaseType : Byte := 0x15
/-- R184 -/
def blockType : Byte := 0x16
/-- R184 -/
def unblockType : Byte := 0x17
/-- R184 -/
def resetTrunkType : Byte := 0x18
/-- R184 -/
def queryTrunkType : Byte := 0x19
/-- R184 -/
def measureType : Byte := 0x20
/-- R184 -/
def queryPoolType : Byte := 0x21
/-- R184 -/
def readTrafficType : Byte := 0x22
/-- R184 -/
def pollType : Byte := 0x30
/-- R184 -/
def readFaultType : Byte := 0x31
/-- R184 -/
def clearFaultType : Byte := 0x32
/-- R184 -/
def identifyType : Byte := 0x33
/-- R184 -/
def resetType : Byte := 0x34
/-- R184 -/
def timeMarkType : Byte := 0x35

/-! ### Shared checks -/

/-- A command judged: the status of the first check that fails, or what the command acts on. -/
abbrev Judged (α : Type) := Except Status α

/-- One check of a command. -/
def check (holds : Bool) (status : Status) : Judged Unit := if holds then .ok () else .error status

/-- A field that must be one of its values. -/
def fieldOf {α : Type} (o : Option α) : Judged α :=
  match o with
  | some x => .ok x
  | none => .error .badValue

/-- R39: the checks of a command that carries one trunk number and is taken in some states. -/
def State.judgeTrunk (s : State) (p : List Byte) (allowed : TrunkState → Bool) : Judged TrunkNo := do
  check (p.length == 1) .badLength
  let t ← fieldOf (trunkOf (byteAt p 0))
  check ((s.trunk t).role != .unequipped) .notEquipped
  check (allowed (s.trunk t).state) .badState
  return t

end Sys2Proof.Machine
end

