-- ==== Sys2Proof/Machine/CallCommands.lean ====
section
/-! DEFINITION. The host's commands on a trunk: SEIZE with its relay part (R43, R160, R161), ADD-DIGITS (R150),
ACCEPT-DIGITS (R151), ANSWER, CLEAR-BACK, RELEASE, BLOCK, UNBLOCK, RESET-TRUNK and QUERY-TRUNK (R54, R59, R60, R66,
R67, R71, R72). -/

namespace Sys2Proof.Machine

/-! ### SEIZE -/

/-- The relay part of a SEIZE that has passed the relay conditions (R160). -/
structure RelayRequest where
  inlet : TrunkNo
  delete : Nat
  insert : List Digit
deriving DecidableEq, Repr

/-- A trunk's tone receiver holds a pending outcome (R139, R151, R160). -/
def Trunk.outcomePending (r : Trunk) : Bool :=
  match r.tone with
  | some (.receiver c) => c.pending.isSome
  | _ => false

/-- R160: the relay conditions. -/
def State.judgeRelay (s : State) (f : SeizeFields) (k : RelayPart) : Judged RelayRequest := do
  let inlet ← fieldOf (trunkOf k.inlet)
  check (inlet != f.trunk && k.delete ≤ 24 && k.insert.length ≤ 4) .badValue
  let digits ← fieldOf (digitsOf k.insert)
  check (f.digits.isEmpty && !f.endFlag) .badValue
  let r := s.trunk inlet
  check (r.role != .unequipped && r.state == .inSelecting && r.link.isNone && !r.outcomePending) .badState
  check ((s.profileOf f.trunk).method != .noRegister) .badState
  check (digits.length + (r.received.digits.length - k.delete) ≤ Config.storeRoom) .noRoom
  return { inlet := inlet, delete := k.delete, insert := digits }

/-- R43 with R160: the judgement of a SEIZE. -/
def State.judgeSeize (s : State) (p : List Byte) : Judged (SeizeFields × Option RelayRequest) := do
  check (seizeWellFormed p) .badLength
  let f ← fieldOf (readSeize p)
  let r := s.trunk f.trunk
  check (r.role != .unequipped) .notEquipped
  check (r.role != .incoming) .badState
  check (r.state == .idle) .badState
  match f.relay with
  | none => return (f, none)
  | some k => do
    let q ← s.judgeRelay f k
    return (f, some q)

/-- R43: an outgoing call starts. -/
def State.startCall (s : State) (f : SeizeFields) : State :=
  let s := s.mapTrunk f.trunk fun r => { r with send := { digits := f.digits, endFlag := f.endFlag, pos := 1 } }
  let s := (s.openRecord f.trunk .outgoing f.ref (some f.category)).countFor f.trunk Traffic.addAttempt
  (s.enter f.trunk .outSeizing).startTimer f.trunk .ack (s.profileOf f.trunk).ackTimer

/-- R161: the link is made and the outlet's send store loaded; a number that the inlet's end-received mark shows as
ended completes at once. -/
def State.makeLink (s : State) (outlet : TrunkNo) (q : RelayRequest) : State :=
  let loaded := (s.trunk q.inlet).received.digits.drop q.delete
  let s := s.mapTrunk q.inlet fun r =>
    { r with
      link := some { peer := outlet, part := .inlet }
      linkRecord := some { delete := q.delete, relayed := loaded.length, inletComplete := false } }
  let s := s.mapTrunk outlet fun r =>
    { r with
      link := some { peer := q.inlet, part := .outlet }
      send := { digits := q.insert ++ loaded, endFlag := false, pos := 1 } }
  if (s.trunk q.inlet).received.endReceived then s.completeInlet q.inlet outlet else s

/-- R43, R161 -/
def State.takeSeize (s : State) (p : List Byte) : State :=
  match s.judgeSeize p with
  | .error status => s.refuse seizeType status
  | .ok (f, none) => (s.startCall f).accept seizeType
  | .ok (f, some q) => ((s.startCall f).makeLink f.trunk q).accept seizeType

/-! ### ADD-DIGITS -/

/-- The fields of an ADD-DIGITS (08, ADD-DIGITS). -/
structure AddedDigits where
  trunk : TrunkNo
  endFlag : Bool
  digits : List Digit
deriving DecidableEq, Repr

/-- R150: the states in which ADD-DIGITS is taken. -/
def TrunkState.takesDigits : TrunkState → Bool
  | .outSeizing | .outSelecting | .outWaitAnswer | .outAnswered | .outClearback | .outRejected => true
  | _ => false

/-- R150: the judgement of an ADD-DIGITS. -/
def State.judgeAddDigits (s : State) (p : List Byte) : Judged AddedDigits := do
  check (3 ≤ p.length && p.length == 3 + byteAt p 2) .badLength
  let t ← fieldOf (trunkOf (byteAt p 0))
  let endFlag ← fieldOf (flagOf (byteAt p 1))
  check (byteAt p 2 ≤ 24) .badValue
  let digits ← fieldOf (digitsOf (p.drop 3))
  let r := s.trunk t
  check (r.role != .unequipped) .notEquipped
  check r.state.takesDigits .badState
  check r.inlet.isNone .badState
  check (!r.send.endFlag) .badState
  check (r.send.digits.length + digits.length ≤ Config.storeRoom) .noRoom
  return { trunk := t, endFlag := endFlag, digits := digits }

/-- R150: the digits are appended and the end flag set, and the sending engine takes them (R76, R127). -/
def State.appendDigits (s : State) (a : AddedDigits) : State :=
  let s := s.mapTrunk a.trunk fun r =>
    { r with send := { r.send with digits := r.send.digits ++ a.digits, endFlag := r.send.endFlag || a.endFlag } }
  if a.digits.isEmpty then (if a.endFlag then s.takeEnd a.trunk else s) else s.takeDigits a.trunk

/-- R150 -/
def State.takeAddDigits (s : State) (p : List Byte) : State :=
  match s.judgeAddDigits p with
  | .error status => s.refuse addDigitsType status
  | .ok a => (s.appendDigits a).accept addDigitsType

/-! ### ACCEPT-DIGITS -/

/-- R151: the judgement of an ACCEPT-DIGITS. -/
def State.judgeAcceptDigits (s : State) (p : List Byte) : Judged (TrunkNo × RegOutcome) := do
  check (p.length == 2) .badLength
  let t ← fieldOf (trunkOf (byteAt p 0))
  let o ← fieldOf (acceptOutcomeOf (byteAt p 1))
  let r := s.trunk t
  check (r.role != .unequipped) .notEquipped
  check (r.state == .inSelecting) .badState
  check (!r.outcomePending) .badState
  check (!((r.linkRecord.map (·.inletComplete)).getD false)) .badState
  return (t, o)

/-- R151, R165: a rejection by the host at a relay inlet. A tone receiver takes it as pending, and the link dissolves
at that moment; elsewhere it is handed up at once and the link dissolves with it. -/
def State.rejectLinkedInlet (s : State) (t : TrunkNo) (cause : Cause) : State :=
  match (s.trunk t).tone with
  | some _ => (s.inletGone t).takeCarried t (.reject cause)
  | none => s.rejectIn t cause

/-- R151: the outcome that the host gives a number. -/
def State.acceptNumber (s : State) (t : TrunkNo) (o : RegOutcome) : State :=
  match (s.trunk t).outlet, o with
  | none, o => s.takeCarried t o
  | some outlet, .complete => s.completeInlet t outlet
  | some _, .reject cause => s.rejectLinkedInlet t cause

/-- R151 -/
def State.takeAcceptDigits (s : State) (p : List Byte) : State :=
  match s.judgeAcceptDigits p with
  | .error status => s.refuse acceptDigitsType status
  | .ok (t, o) => (s.acceptNumber t o).accept acceptDigitsType

/-! ### ANSWER, CLEAR-BACK and RELEASE -/

/-- R59 -/
def TrunkState.answerable : TrunkState → Bool
  | .inWaitAnswer | .inClearback => true
  | _ => false

/-- R59: the host answers an incoming call. -/
def State.answerCall (s : State) (t : TrunkNo) : State :=
  if (s.trunk t).state = .inWaitAnswer then
    ((s.stampAnswer t).countFor t Traffic.addInAnswer).enter t .inAnswered
  else (s.mapRecord t CallRecord.countAnswer).enter t .inAnswered

/-- R59 -/
def State.takeAnswer (s : State) (p : List Byte) : State :=
  match s.judgeTrunk p TrunkState.answerable with
  | .error status => s.refuse answerType status
  | .ok t => (s.answerCall t).accept answerType

/-- R60 -/
def State.takeClearBack (s : State) (p : List Byte) : State :=
  match s.judgeTrunk p (· == .inAnswered) with
  | .error status => s.refuse clearBackType status
  | .ok t => (s.enter t .inClearback).accept clearBackType

/-- R54: the states in which RELEASE is taken. -/
def TrunkState.releasable : TrunkState → Bool
  | .outSeizing | .outSelecting | .outWaitAnswer | .outAnswered | .outClearback | .outRejected => true
  | _ => false

/-- R54: the host releases an outgoing call. -/
def State.releaseCall (s : State) (t : TrunkNo) : State := (s.endRegisterWork t (.reject .congestion)).clearOut t

/-- R54 -/
def State.takeRelease (s : State) (p : List Byte) : State :=
  match s.judgeTrunk p TrunkState.releasable with
  | .error status => s.refuse releaseType status
  | .ok t => (s.releaseCall t).accept releaseType

/-! ### BLOCK, UNBLOCK and RESET-TRUNK -/

/-- R66 -/
def State.blockTrunk (s : State) (t : TrunkNo) : State :=
  let s := s.mapTrunk t fun r => { r with localBlock := true }
  if (s.trunk t).state = .idle ∨ (s.trunk t).state = .remoteBlocked then s.enter t .localBlocked else s

/-- R66 -/
def State.takeBlock (s : State) (p : List Byte) : State :=
  match s.judgeTrunk p fun _ => true with
  | .error status => s.refuse blockType status
  | .ok t => (s.blockTrunk t).accept blockType

/-- R67 -/
def State.unblockTrunk (s : State) (t : TrunkNo) : State :=
  let s := s.mapTrunk t fun r => { r with localBlock := false }
  if (s.trunk t).state = .localBlocked then s.enterIdle t else s

/-- R67 -/
def State.takeUnblock (s : State) (p : List Byte) : State :=
  match s.judgeTrunk p fun _ => true with
  | .error status => s.refuse unblockType status
  | .ok t => (s.unblockTrunk t).accept unblockType

/-- R71: a call that stands is ended with cause RESET, and the trunk returns to a free state. -/
def State.resetTrunk (s : State) (t : TrunkNo) : State :=
  let s :=
    if (s.trunk t).state.inCall then (s.endRegisterWork t (.reject .congestion)).endCall true t .reset else s
  (s.mapTrunk t fun r => { r with cause := none }).enterIdle t

/-- R71 -/
def State.takeResetTrunk (s : State) (p : List Byte) : State :=
  match s.judgeTrunk p fun _ => true with
  | .error status => s.refuse resetTrunkType status
  | .ok t => (s.resetTrunk t).accept resetTrunkType

/-! ### QUERY-TRUNK -/

/-- R72: a trunk's position in the call wait queue, counted from 1 at the head. -/
def State.waitPosition (s : State) (t : TrunkNo) : Option Nat :=
  (s.callQueue.findIdx? fun e => e.trunk == t).map (· + 1)

/-- R72: the 30 bytes that QUERY-TRUNK carries. -/
def State.trunkBytes (s : State) (t : TrunkNo) : List Byte :=
  let r := s.trunk t
  [byte t.val, byte r.role.code, byte r.profile.val, byte r.group.val, byte r.glare.code, flagByte r.localBlock,
   flagByte r.remoteBlock, byte r.state.code, optByte (r.cause.map Cause.code), byte r.sentCode.toNat,
   optByte (r.lcr.accepted.map (·.toNat)), optByte (r.lcr.candidate.map fun k => k.code.toNat),
   byte ((r.lcr.candidate.map (·.count)).getD 0), byte r.lcr.mode.code,
   optByte (r.timer.map fun k => k.kind.code)] ++
  bytesOf 4 ((r.timer.map (·.left)).getD 0) ++
  [optByte (r.unit.map fun h => h.unit.val), optByte (r.unit.map fun h => h.role.code), optByte (s.waitPosition t),
   optByte (r.link.map fun k => k.peer.val), optByte (r.link.map fun k => k.part.code)] ++
  bytesOf 2 ((r.callRef.map (·.toNat)).getD 0) ++
  [byte ((if r.callRef.isSome then 1 else 0) + (if r.record.isSome then 2 else 0) +
      (if r.timer.isSome && s.inHold then 4 else 0)),
   byte r.received.digits.length, byte r.send.digits.length, byte r.send.pos]

/-- R72 -/
def State.takeQueryTrunk (s : State) (p : List Byte) : State :=
  match s.judgeTrunk p fun _ => true with
  | .error status => s.refuse queryTrunkType status
  | .ok t => s.sendReply queryTrunkType .ok (s.trunkBytes t)

/-! ### The commands -/

/-- R43, R160, R161 -/
def execSeize (payload : List Byte) (s : State) : Answer := .next (s.takeSeize payload)
/-- R150 -/
def execAddDigits (payload : List Byte) (s : State) : Answer := .next (s.takeAddDigits payload)
/-- R151 -/
def execAcceptDigits (payload : List Byte) (s : State) : Answer := .next (s.takeAcceptDigits payload)
/-- R59 -/
def execAnswer (payload : List Byte) (s : State) : Answer := .next (s.takeAnswer payload)
/-- R60 -/
def execClearBack (payload : List Byte) (s : State) : Answer := .next (s.takeClearBack payload)
/-- R54 -/
def execRelease (payload : List Byte) (s : State) : Answer := .next (s.takeRelease payload)
/-- R66 -/
def execBlock (payload : List Byte) (s : State) : Answer := .next (s.takeBlock payload)
/-- R67 -/
def execUnblock (payload : List Byte) (s : State) : Answer := .next (s.takeUnblock payload)
/-- R71 -/
def execResetTrunk (payload : List Byte) (s : State) : Answer := .next (s.takeResetTrunk payload)
/-- R72 -/
def execQueryTrunk (payload : List Byte) (s : State) : Answer := .next (s.takeQueryTrunk payload)

end Sys2Proof.Machine
end

