-- ==== Sys2Proof/Machine/Settings.lean ====
section
/-! DEFINITION. The commands that write and read the settings of the unit: SET-PROFILE, GET-PROFILE, SET-TRUNK,
SET-ANALYSIS, GET-ANALYSIS and SET-REPORTING (R20 to R32, R152 to R154, R158, R196). -/

namespace Sys2Proof.Machine

/-! ### SET-PROFILE and GET-PROFILE -/

/-- A trunk that names a profile and is not UNEQUIPPED (R26). -/
def Trunk.names (r : Trunk) (n : ProfileNo) : Bool := r.role != .unequipped && r.profile == n

/-- R26: the judgement of a SET-PROFILE: the profile number and the record as carried. -/
def State.judgeSetProfile (s : State) (p : List Byte) : Judged (ProfileNo × Profile) := do
  check (p.length == 50) .badLength
  let n ← fieldOf (profileNoOf (byteAt p 0))
  let profile ← fieldOf (readProfile (p.drop 1))
  check profile.codes.valid .badValue
  check (!s.trunks.toList.any (fun r => r.names n && r.role == .bothWay) || profile.codes.validBothWay) .badValue
  check (!s.trunks.toList.any fun r => r.names n && r.state.inCall) .badState
  return (n, profile)

/-- R27: a trunk's sent code under the codes that its profile now has. -/
def State.resendCode (s : State) (t : TrunkNo) : State :=
  s.mapTrunk t fun r => { r with sentCode := sentCodeOf (s.profileOf t).codes r.role r.state }

/-- R27: the states in which SET-PROFILE decodes the accepted code afresh. -/
def TrunkState.redecodes : TrunkState → Bool
  | .idle | .remoteBlocked | .failed => true
  | _ => false

/-- R27: a stored profile is taken into use: first the sent codes, then the decoding. DESIGN CHOICE,
unsafe, log entry 25: each takes T0 first. -/
def State.useProfile (s : State) (n : ProfileNo) : State :=
  (s.forTrunks fun s t => if (s.trunk t).names n then s.resendCode t else s).forTrunks fun s t =>
    if (s.trunk t).names n ∧ (s.trunk t).state.redecodes then s.decodeLine t else s

/-- R26: a profile is stored, clamped as R25 requires. -/
def State.storeProfile (s : State) (n : ProfileNo) (profile : Profile) : State :=
  { s with profiles := s.profiles.set n profile.clamped }

/-- R25, R26, R27 -/
def State.takeSetProfile (s : State) (p : List Byte) : State :=
  match s.judgeSetProfile p with
  | .error status => s.refuse setProfileType status
  | .ok (n, profile) =>
    ((s.storeProfile n profile).useProfile n).sendReply setProfileType
      (if profile.clamped = profile then .ok else .okClamped) []

/-- R28 -/
def State.takeGetProfile (s : State) (p : List Byte) : State :=
  match (do check (p.length == 1) .badLength; fieldOf (profileNoOf (byteAt p 0)) : Judged ProfileNo) with
  | .error status => s.refuse getProfileType status
  | .ok n => s.sendReply getProfileType .ok (byte n.val :: (s.profiles.get n).bytes)

/-! ### SET-TRUNK -/

/-- The fields of a SET-TRUNK (02, SET-TRUNK). -/
structure TrunkSetting where
  trunk : TrunkNo
  role : Role
  profile : ProfileNo
  group : GroupNo
  glare : GlareRole
deriving DecidableEq, Repr

/-- R31: the states from which SET-TRUNK is taken. -/
def TrunkState.configurable : TrunkState → Bool
  | .unequipped | .idle | .localBlocked | .remoteBlocked | .failed => true
  | _ => false

/-- R31: a unit measures the trunk's line, or a MEASURE request for it waits. -/
def State.measured (s : State) (t : TrunkNo) : Bool :=
  (s.measuringUnit t).isSome || s.testQueue.any (·.trunk == t)

/-- R31: the judgement of a SET-TRUNK. -/
def State.judgeSetTrunk (s : State) (p : List Byte) : Judged TrunkSetting := do
  check (p.length == 5) .badLength
  let t ← fieldOf (trunkOf (byteAt p 0))
  let role ← fieldOf (roleOf (byteAt p 1))
  let n ← fieldOf (profileNoOf (byteAt p 2))
  let g ← fieldOf (groupOf (byteAt p 3))
  let glare ← fieldOf (glareOf (byteAt p 4))
  check (role != .bothWay || (s.profiles.get n).codes.validBothWay) .badValue
  check (s.trunk t).state.configurable .badState
  check (!s.measured t) .badState
  return { trunk := t, role := role, profile := n, group := g, glare := glare }

/-- R32: the configuration is written, the remote-block flag and the cause cleared and the line-code receiver reset. -/
def State.configure (s : State) (c : TrunkSetting) : State :=
  s.mapTrunk c.trunk fun r =>
    { r with
      role := c.role, profile := c.profile, group := c.group, glare := c.glare
      remoteBlock := false, cause := none, lcr := {} }

/-- R32, R38: the state that a configured trunk enters. -/
def State.enterConfigured (s : State) (t : TrunkNo) : State :=
  if (s.trunk t).role = .unequipped then s.enter t .unequipped else s.enterIdle t

/-- R31, R32 -/
def State.takeSetTrunk (s : State) (p : List Byte) : State :=
  match s.judgeSetTrunk p with
  | .error status => s.refuse setTrunkType status
  | .ok c => ((s.configure c).enterConfigured c.trunk).accept setTrunkType

/-! ### SET-ANALYSIS and GET-ANALYSIS -/

/-- R153: the judgement of a SET-ANALYSIS: the index, one of the table's 32, and the entry. -/
def judgeSetAnalysis (p : List Byte) : Judged (Fin 32 × AnalysisEntry) := do
  check (p.length == 12) .badLength
  let k ← fieldOf (trunkOf (byteAt p 0))
  let e ← fieldOf (readAnalysis p)
  return (k, e)

/-- R153, R158 -/
def State.takeSetAnalysis (s : State) (p : List Byte) : State :=
  match judgeSetAnalysis p with
  | .error status => s.refuse setAnalysisType status
  | .ok (k, e) => ({ s with analysis := s.analysis.set k e } : State).accept setAnalysisType

/-- R154 -/
def State.takeGetAnalysis (s : State) (p : List Byte) : State :=
  match (do check (p.length == 1) .badLength; fieldOf (trunkOf (byteAt p 0)) : Judged (Fin 32)) with
  | .error status => s.refuse getAnalysisType status
  | .ok k => s.sendReply getAnalysisType .ok ((s.analysis.get k).bytes k.val)

/-! ### SET-REPORTING -/

/-- R12: the hold limit timer under a limit that has changed during the hold. -/
def HoldTimer.rebase (k : HoldTimer) (limit : Nat) : HoldTimer := { k with left := max 1 (100 * limit - k.spent) }

/-- R12: a hold limit is stored; one that changes during a hold moves the running timer. DEDUCED, unsafe, log entry
24: an unchanged limit leaves the timer. -/
def Highway.setLimit (h : Highway) (limit : Nat) : Highway :=
  { h with
    holdLimit := limit
    holdTimer := if h.holdLimit = limit then h.holdTimer else h.holdTimer.map (·.rebase limit) }

/-- R196: the three values are stored at once, and ATTN is judged under the new settings. -/
def State.storeReporting (s : State) (threshold holdTime limit : Nat) : State :=
  ({ s with hwi := s.hwi.setLimit limit } : State).withReports
    { s.rqa with threshold := threshold, holdTime := holdTime }

/-- R12, R196 -/
def State.takeSetReporting (s : State) (p : List Byte) : State :=
  if p.length = 3 then
    let threshold := min 64 (max 1 (byteAt p 0))
    let limit := max 1 (byteAt p 2)
    (s.storeReporting threshold (byteAt p 1) limit).sendReply setReportingType
      (if threshold = byteAt p 0 ∧ limit = byteAt p 2 then .ok else .okClamped)
      [byte threshold, byte (byteAt p 1), byte limit]
  else s.refuse setReportingType .badLength

/-! ### The commands -/

/-- R26 -/
def execSetProfile (payload : List Byte) (s : State) : Answer := .next (s.takeSetProfile payload)
/-- R28 -/
def execGetProfile (payload : List Byte) (s : State) : Answer := .next (s.takeGetProfile payload)
/-- R31, R32 -/
def execSetTrunk (payload : List Byte) (s : State) : Answer := .next (s.takeSetTrunk payload)
/-- R153 -/
def execSetAnalysis (payload : List Byte) (s : State) : Answer := .next (s.takeSetAnalysis payload)
/-- R154 -/
def execGetAnalysis (payload : List Byte) (s : State) : Answer := .next (s.takeGetAnalysis payload)
/-- R196 -/
def execSetReporting (payload : List Byte) (s : State) : Answer := .next (s.takeSetReporting payload)

end Sys2Proof.Machine
end

