-- ==== Sys2Proof/Machine/UnitCommands.lean ====
section
/-! DEFINITION. The commands on the pool, the traffic counters, the report queue, the fault capture record and the unit:
MEASURE, QUERY-POOL, READ-TRAFFIC, POLL, READ-FAULT, CLEAR-FAULT and IDENTIFY (R95, R102, R177, R188, R197, R199). -/

namespace Sys2Proof.Machine

/-! ### MEASURE and QUERY-POOL -/

/-- R95: a trunk holds a unit, for signalling or measuring, or has an entry in a wait queue. -/
def State.engaged (s : State) (t : TrunkNo) : Bool :=
  (s.trunk t).unit.isSome || s.measured t || s.callQueue.any (·.trunk == t)

/-- R95: the unit that a MEASURE taken now is granted, if one can be. -/
def State.measuringGrant (s : State) : Option UnitNo := if s.inHold then none else s.freeUnitNo

/-- R95: the judgement of a MEASURE. -/
def State.judgeMeasure (s : State) (p : List Byte) : Judged TrunkNo := do
  check (p.length == 2) .badLength
  let t ← fieldOf (trunkOf (byteAt p 0))
  check ((s.trunk t).role != .unequipped) .notEquipped
  check (!s.engaged t) .badState
  check (s.measuringGrant.isSome || s.testQueue.length < Config.testRoom) .noRoom
  return t

/-- R95, R96: an accepted test request is granted the lowest-numbered free unit, or joins the test wait queue; with the
two bytes of its reply. -/
def State.testRequest (s : State) (t : TrunkNo) (blocks : Nat) : State × List Byte :=
  match s.measuringGrant with
  | some u => (s.grantTest u t blocks, [0, byte u.val])
  | none =>
    (s.withTestQueue (s.testQueue ++ [{ trunk := t, blocks := blocks, left := Config.testWait }]),
      [1, byte (s.testQueue.length + 1)])

/-- R95 -/
def State.takeMeasure (s : State) (p : List Byte) : State :=
  match s.judgeMeasure p with
  | .error status => s.refuse measureType status
  | .ok t =>
    let blocks := min 50 (max 1 (byteAt p 1))
    (s.testRequest t blocks).1.sendReply measureType (if blocks = byteAt p 1 then .ok else .okClamped)
      (s.testRequest t blocks).2

/-- R102: the four bytes of a unit. -/
def UnitStatus.bytes : UnitStatus → List Byte
  | .free => [0, 0xFF, 0xFF, 0xFF]
  | .signalling t role => [1, byte t.val, byte role.code, 0xFF]
  | .measuring t asked done => [2, byte t.val, byte asked, byte done]

/-- R102: the five bytes of a queue entry. -/
def waitBytes (t : TrunkNo) (field left : Nat) (suspended : Bool) : List Byte :=
  [byte t.val, byte field] ++ bytesOf 2 left ++ [flagByte suspended]

/-- R102: the data of QUERY-POOL. -/
def State.poolBytes (s : State) : List Byte :=
  (s.units.toList.map fun u => u.status.bytes).flatten ++
  byte s.callQueue.length :: (s.callQueue.map fun e => waitBytes e.trunk e.role.code e.left s.inHold).flatten ++
  byte s.testQueue.length :: (s.testQueue.map fun r => waitBytes r.trunk r.blocks r.left s.inHold).flatten

/-- R102 -/
def State.takeQueryPool (s : State) (p : List Byte) : State :=
  if p = [] then s.sendReply queryPoolType .ok s.poolBytes else s.refuse queryPoolType .badLength

/-! ### READ-TRAFFIC -/

/-- R177: the six counters of a group. -/
def Traffic.bytes (c : Traffic) : List Byte :=
  bytesOf 4 c.outAttempts ++ bytesOf 4 c.outAnswered ++ bytesOf 4 c.inSeizures ++ bytesOf 4 c.inAnswered ++
    bytesOf 4 c.failures ++ bytesOf 4 c.occupancy

/-- R177: the judgement of a READ-TRAFFIC. -/
def judgeReadTraffic (p : List Byte) : Judged (GroupNo × Bool) := do
  check (p.length == 2) .badLength
  let g ← fieldOf (groupOf (byteAt p 0))
  let clear ← fieldOf (flagOf (byteAt p 1))
  return (g, clear)

/-- R177: a group's counters set to 0 where the clear flag is 1. -/
def State.clearTraffic (s : State) (g : GroupNo) (clear : Bool) : State :=
  if clear then { s with traffic := s.traffic.set g {} } else s

/-- R177 -/
def State.takeReadTraffic (s : State) (p : List Byte) : State :=
  match judgeReadTraffic p with
  | .error status => s.refuse readTrafficType status
  | .ok (g, clear) =>
    (s.clearTraffic g clear).sendReply readTrafficType .ok (byte g.val :: (s.traffic.get g).bytes)

/-! ### POLL -/

/-- R197: how many entries from the head fit within a number of bytes. -/
def fitting : Nat → List ReportEntry → Nat
  | _, [] => 0
  | room, e :: rest => if e.bytes.length ≤ room then fitting (room - e.bytes.length) rest + 1 else 0

/-- R197: the entries that a POLL delivers. -/
def ReportQueue.delivered (q : ReportQueue) : List ReportEntry := q.entries.take (fitting Config.pollRoom q.entries)

/-- R197: the entries that remain after a POLL. -/
def ReportQueue.remaining (q : ReportQueue) : List ReportEntry := q.entries.drop (fitting Config.pollRoom q.entries)

/-- R197: the data of a POLL. -/
def ReportQueue.pollBytes (q : ReportQueue) : List Byte :=
  [byte q.remaining.length, byte ((if q.sequenceLoss then 1 else 0) + (if q.conditionLoss then 2 else 0)),
    byte q.delivered.length] ++ (q.delivered.map ReportEntry.bytes).flatten

/-- R197: the queue after a POLL. -/
def ReportQueue.polled (q : ReportQueue) : ReportQueue :=
  { q with entries := q.remaining, sequenceLoss := false, conditionLoss := false }

/-- R197 -/
def State.takePoll (s : State) (p : List Byte) : State :=
  if p = [] then (s.withReports s.rqa.polled).sendReply pollType .ok s.rqa.pollBytes else s.refuse pollType .badLength

/-! ### READ-FAULT and CLEAR-FAULT -/

/-- R199: the 8 bytes of READ-FAULT. -/
def FaultRecord.bytes (r : FaultRecord) : List Byte :=
  match r.held with
  | none => [0, 0, 0xFF, 0, 0, 0, 0, 0]
  | some f => [1, byte f.kind.code, trunkByte f.trunk] ++ bytesOf 4 f.time.toNat ++ [flagByte r.further]

/-- R199 -/
def State.takeReadFault (s : State) (p : List Byte) : State :=
  if p = [] then s.sendReply readFaultType .ok s.fault.bytes else s.refuse readFaultType .badLength

/-- R199: the judgement of a CLEAR-FAULT against the record. -/
def State.judgeClearFault (s : State) (p : List Byte) : Judged Unit := do
  check (p.length == 5) .badLength
  let further ← fieldOf (flagOf (byteAt p 4))
  match s.fault.held with
  | none => return ()
  | some f => check (f.time.toNat == natOf (p.take 4) && s.fault.further == further) .badState

/-- R199: an occupied record is emptied and its flag cleared. -/
def State.emptyFault (s : State) : State := if s.fault.held.isSome then { s with fault := {} } else s

/-- R199 -/
def State.takeClearFault (s : State) (p : List Byte) : State :=
  match s.judgeClearFault p with
  | .error status => s.refuse clearFaultType status
  | .ok _ => s.emptyFault.accept clearFaultType

/-! ### IDENTIFY -/

/-- R188: the 9 bytes of IDENTIFY. -/
def State.identity (s : State) : List Byte :=
  [byte Config.revision, byte s.clk.address.toNat, byte s.clk.rate.toNat] ++ bytesOf 4 s.tmb.counter.toNat ++
    [byte s.tmb.source.code, byte s.hwi.alignment.code]

/-- R188 -/
def State.takeIdentify (s : State) (p : List Byte) : State :=
  if p = [] then s.sendReply identifyType .ok s.identity else s.refuse identifyType .badLength

/-! ### The commands -/

/-- R95 -/
def execMeasure (payload : List Byte) (s : State) : Answer := .next (s.takeMeasure payload)
/-- R102 -/
def execQueryPool (payload : List Byte) (s : State) : Answer := .next (s.takeQueryPool payload)
/-- R177 -/
def execReadTraffic (payload : List Byte) (s : State) : Answer := .next (s.takeReadTraffic payload)
/-- R197 -/
def execPoll (payload : List Byte) (s : State) : Answer := .next (s.takePoll payload)
/-- R199 -/
def execReadFault (payload : List Byte) (s : State) : Answer := .next (s.takeReadFault payload)
/-- R199 -/
def execClearFault (payload : List Byte) (s : State) : Answer := .next (s.takeClearFault payload)
/-- R188 -/
def execIdentify (payload : List Byte) (s : State) : Answer := .next (s.takeIdentify payload)

end Sys2Proof.Machine
end

