-- ==== Sys2Proof/Machine/Link.lean ====
section
/-! DEFINITION. The control link: resets and TIME-MARK (R6, R187, R200), the judgement of a frame that ends at the unit
(R183 to R185), the end of a reply (R185), and the reception of characters (R180 to R183). -/

namespace Sys2Proof.Machine

/-! ### Resets -/

/-- R200: power-on; the commands that wait are kept (log entry 19). -/
def execPowerOnReset (straps : Straps) (s : State) : Answer := .next (.afterHardReset .power straps s.pending)

/-- R178, R200: a low level on RESET; a reply being sent ends at once. -/
def execPinReset (straps : Straps) (s : State) : Answer := .next (.afterHardReset .pin straps s.pending)

/-- R187: what the RESET command keeps of the control link: the address, its validity and the rate setting. The receiver
is in SEARCHING, and the level of the line stays what it is. -/
def ControlLink.commandReset (c : ControlLink) : ControlLink :=
  { address := c.address, addressValid := c.addressValid, rate := c.rate, receiver := { level := c.receiver.level } }

/-- R187, R200: the RESET command is carried out; the time base is kept. -/
def State.commandReset (s : State) : State :=
  .afterReset .command s.tmb s.clk.commandReset s.sgtx s.ltx s.pending

/-- R187: an individually addressed RESET is answered, and is made when its reply has been sent. -/
def State.takeReset (s : State) (p : List Byte) : State :=
  if p = [] then
    let s := s.accept resetType
    { s with clk := { s.clk with resetPending := true } }
  else s.refuse resetType .badLength

/-- R187: a broadcast RESET. -/
def State.broadcastReset (s : State) (p : List Byte) : State := if p = [] then s.commandReset else s

/-! ### TIME-MARK -/

/-- R6: the counter is loaded. -/
def State.loadCounter (s : State) (p : List Byte) : State :=
  { s with tmb := { s.tmb with counter := BitVec.ofNat 32 (natOf p) } }

/-- R187: an individually addressed TIME-MARK. -/
def State.takeTimeMark (s : State) (p : List Byte) : State :=
  if p.length = 4 then (s.loadCounter p).accept timeMarkType else s.refuse timeMarkType .badLength

/-- R187: a broadcast TIME-MARK. -/
def State.broadcastTimeMark (s : State) (p : List Byte) : State := if p.length = 4 then s.loadCounter p else s

/-! ### The judgement of a frame -/

/-- R184: the command that a TYPE names, with the block that owns it. -/
def ownerOf (type_ : Byte) : Option (State → List Byte → State) :=
  match type_.toNat with
  | 0x01 => some State.takeSetProfile
  | 0x02 => some State.takeGetProfile
  | 0x03 => some State.takeSetTrunk
  | 0x04 => some State.takeSetAnalysis
  | 0x05 => some State.takeGetAnalysis
  | 0x06 => some State.takeSetReporting
  | 0x10 => some State.takeSeize
  | 0x11 => some State.takeAddDigits
  | 0x12 => some State.takeAcceptDigits
  | 0x13 => some State.takeAnswer
  | 0x14 => some State.takeClearBack
  | 0x15 => some State.takeRelease
  | 0x16 => some State.takeBlock
  | 0x17 => some State.takeUnblock
  | 0x18 => some State.takeResetTrunk
  | 0x19 => some State.takeQueryTrunk
  | 0x20 => some State.takeMeasure
  | 0x21 => some State.takeQueryPool
  | 0x22 => some State.takeReadTraffic
  | 0x30 => some State.takePoll
  | 0x31 => some State.takeReadFault
  | 0x32 => some State.takeClearFault
  | 0x33 => some State.takeIdentify
  | 0x34 => some State.takeReset
  | 0x35 => some State.takeTimeMark
  | _ => none

/-- The TYPE of a frame, where one was stored. -/
def frameType (f : Frame) : Option Byte := f.data[1]?

/-- The payload of a frame that ended at its CHECK. -/
def framePayload (f : Frame) : List Byte := (f.data.drop 2).dropLast

/-- R183: a frame that has ended is errored: its errored mark, an unreadable or out-of-range LEN, or its check sum. -/
def frameErrored (f : Frame) : Bool := f.errored || (frameType f).isNone || checkSum f.data != 0

/-- R184, R186: the judgement of an individually addressed frame. -/
def State.judgeOwn (s : State) (f : Frame) : State :=
  if frameErrored f then s.refuse ((frameType f).getD 0) .badFrame
  else
    match ownerOf ((frameType f).getD 0) with
    | none => s.refuse ((frameType f).getD 0) .unknownType
    | some take => take s (framePayload f)

/-- R184, R187: the judgement of a broadcast frame. -/
def State.judgeBroadcast (s : State) (f : Frame) : State :=
  if frameErrored f then s
  else if frameType f = some resetType then s.broadcastReset (framePayload f)
  else if frameType f = some timeMarkType then s.broadcastTimeMark (framePayload f)
  else s

/-- R183: at the end of a frame, whatever the judgement, the state becomes IDLE and the buffer empty. -/
def State.endCollection (s : State) : State :=
  { s with clk := { s.clk with collection := .idle, buffer := [], errored := false } }

/-- R184, R185: a frame that has ended is judged. While a command is held it is discarded and the overrun flag set. -/
def State.judgeFrame (s : State) (f : Frame) : State :=
  if s.clk.reply.isSome then { s with clk := { s.clk with overrun := true } }
  else
    match f.dest with
    | .own => s.judgeOwn f
    | .broadcast => s.judgeBroadcast f

/-- R183, R184: a frame ends at the unit. -/
def State.endFrame (s : State) (f : Frame) : State := s.endCollection.judgeFrame f

/-- R181: a frame reaches the unit: a unit with an invalid address takes no individually addressed frame. -/
def ControlLink.takes (c : ControlLink) (dest : Dest) : Bool := dest == .broadcast || c.addressValid

/-- R184, R185: a frame ends at the unit and is judged. Data that are not those of an ended frame (R183) end no frame. -/
def execCommandFrame (frame : Frame) (s : State) : Answer :=
  .next (if s.clk.takes frame.dest && frame.wellFormed then s.endFrame frame else s)

/-- R185: the unit no longer holds a command. -/
def State.releaseCommand (s : State) : State := { s with clk := { s.clk with reply := none } }

/-- R185, R187: the stop bit of the reply's last character has been sent; a RESET that was answered is then made. -/
def execReplyComplete (s : State) : Answer :=
  .next (if s.clk.reply.isNone then s
    else if s.clk.resetPending then s.commandReset
    else s.releaseCommand)

/-- R187: a RESET that the link has handed over. -/
def execReset (dest : Dest) (payload : List Byte) (s : State) : Answer :=
  .next (match dest with
    | .own => s.takeReset payload
    | .broadcast => s.broadcastReset payload)

/-- R6, R187: a TIME-MARK that the link has handed over. -/
def execTimeMark (dest : Dest) (payload : List Byte) (s : State) : Answer :=
  .next (match dest with
    | .own => s.takeTimeMark payload
    | .broadcast => s.broadcastTimeMark payload)

/-! ### Reception -/

/-- R182: the collection state that a header begins. -/
def ControlLink.header (c : ControlLink) (x : Byte) : Collection :=
  if 32 ≤ x.toNat then .idle
  else if x.toNat = 31 then .broadcast
  else if c.addressValid ∧ x.toNat = c.address.toNat then .own
  else .idle

/-- R182: a header ends any frame being collected and begins its own. -/
def ControlLink.takeHeader (c : ControlLink) (x : Byte) : ControlLink :=
  { c with collection := c.header x, buffer := [], errored := false }

/-- R183: a data character is stored in the buffer. -/
def ControlLink.store (c : ControlLink) (x : Character) : ControlLink :=
  { c with buffer := c.buffer ++ [x.data], errored := c.errored || x.framingError }

/-- R183: the frame being collected has ended. -/
def ControlLink.frameEnded (c : ControlLink) : Bool :=
  match c.buffer with
  | [] => false
  | len :: rest => (rest.isEmpty && (c.errored || !lenInRange len)) || rest.length == len.toNat + 1

/-- R182: the addressing of the frame being collected, if one is. -/
def Collection.dest : Collection → Option Dest
  | .idle => none
  | .own => some .own
  | .broadcast => some .broadcast

/-- R182, R183: a data character; where it ends the frame, the frame is judged. -/
def State.takeData (s : State) (x : Character) : State :=
  match s.clk.collection.dest with
  | none => s
  | some dest =>
    let c := s.clk.store x
    if c.frameEnded then
      s.endFrame { dest := dest, errored := c.errored, data := c.buffer }
    else { s with clk := c }

/-- R182: frame assembly takes a character. -/
def State.takeCharacter (s : State) (x : Character) : State :=
  if x.marker && !x.framingError then { s with clk := s.clk.takeHeader x.data } else s.takeData x

/-- R180, R182: the receiver takes one sample of CMD, and frame assembly a character that it completes. -/
def State.hearSample (s : State) (level : Bool) : State :=
  let x := s.clk.receiver.sample level
  let s : State := { s with clk := { s.clk with receiver := x.1 } }
  match x.2 with
  | none => s
  | some c => s.takeCharacter c

/-- R180, R182: samples of CMD are taken, one after another. -/
def execCharacterReceived (samples : CharSamples) (s : State) : Answer := .next (samples.foldl State.hearSample s)

end Sys2Proof.Machine
end

