-- ==== Sys2Proof/Machine/Dispatch.lean ====
section
/-! DEFINITION. The dispatch of a command to its meaning: one arm for each row of the table. -/

namespace Sys2Proof.Machine

/-- The effect of a command on everything but the queue of commands that wait. -/
def exec (i : Instr) (s : State) : Host.Outcome State Fault Refusal :=
  match i with
  | .powerOnReset straps => Sys2Proof.Machine.execPowerOnReset straps s
  | .pinReset straps => Sys2Proof.Machine.execPinReset straps s
  | .fsEdge => Sys2Proof.Machine.execFsEdge s
  | .fsLoss => Sys2Proof.Machine.execFsLoss s
  | .millisecondEvent => Sys2Proof.Machine.execMillisecondEvent s
  | .transmitFrameEvent => Sys2Proof.Machine.execTransmitFrameEvent s
  | .durationTick => Sys2Proof.Machine.execDurationTick s
  | .huntAlignmentWord frame => Sys2Proof.Machine.execHuntAlignmentWord frame s
  | .receivedFrameEvent frame => Sys2Proof.Machine.execReceivedFrameEvent frame s
  | .holdAlignmentWord frame => Sys2Proof.Machine.execHoldAlignmentWord frame s
  | .holdLimitExpiry => Sys2Proof.Machine.execHoldLimitExpiry s
  | .ackTimerExpiry t => Sys2Proof.Machine.execAckTimerExpiry t s
  | .answerWaitExpiry t => Sys2Proof.Machine.execAnswerWaitExpiry t s
  | .clearBackTimerExpiry t => Sys2Proof.Machine.execClearBackTimerExpiry t s
  | .releaseTimerExpiry t => Sys2Proof.Machine.execReleaseTimerExpiry t s
  | .guardTimerExpiry t => Sys2Proof.Machine.execGuardTimerExpiry t s
  | .sendBreakExpiry t => Sys2Proof.Machine.execSendBreakExpiry t s
  | .sendMakeExpiry t => Sys2Proof.Machine.execSendMakeExpiry t s
  | .pauseTimerExpiry t => Sys2Proof.Machine.execPauseTimerExpiry t s
  | .decadicSenderDigitWait t => Sys2Proof.Machine.execDecadicSenderDigitWait t s
  | .digitEndTimerExpiry t => Sys2Proof.Machine.execDigitEndTimerExpiry t s
  | .clearRecognitionExpiry t => Sys2Proof.Machine.execClearRecognitionExpiry t s
  | .decadicDigitWaitExpiry t => Sys2Proof.Machine.execDecadicDigitWaitExpiry t s
  | .callWaitExpiry t => Sys2Proof.Machine.execCallWaitExpiry t s
  | .testWaitExpiry t => Sys2Proof.Machine.execTestWaitExpiry t s
  | .toneBlockEvent u => Sys2Proof.Machine.execToneBlockEvent u s
  | .senderDigitWaitExpiry t => Sys2Proof.Machine.execSenderDigitWaitExpiry t s
  | .senderInterlockExpiry t => Sys2Proof.Machine.execSenderInterlockExpiry t s
  | .receiverInterlockExpiry t => Sys2Proof.Machine.execReceiverInterlockExpiry t s
  | .receiverDigitWaitExpiry t => Sys2Proof.Machine.execReceiverDigitWaitExpiry t s
  | .pulseTimerExpiry t => Sys2Proof.Machine.execPulseTimerExpiry t s
  | .hostDecisionWaitExpiry t => Sys2Proof.Machine.execHostDecisionWaitExpiry t s
  | .attnHoldTimeReached => Sys2Proof.Machine.execAttnHoldTimeReached s
  | .commandFrame frame => Sys2Proof.Machine.execCommandFrame frame s
  | .replyComplete => Sys2Proof.Machine.execReplyComplete s
  | .setProfile payload => Sys2Proof.Machine.execSetProfile payload s
  | .getProfile payload => Sys2Proof.Machine.execGetProfile payload s
  | .setTrunk payload => Sys2Proof.Machine.execSetTrunk payload s
  | .setAnalysis payload => Sys2Proof.Machine.execSetAnalysis payload s
  | .getAnalysis payload => Sys2Proof.Machine.execGetAnalysis payload s
  | .setReporting payload => Sys2Proof.Machine.execSetReporting payload s
  | .seize payload => Sys2Proof.Machine.execSeize payload s
  | .addDigits payload => Sys2Proof.Machine.execAddDigits payload s
  | .acceptDigits payload => Sys2Proof.Machine.execAcceptDigits payload s
  | .answer payload => Sys2Proof.Machine.execAnswer payload s
  | .clearBack payload => Sys2Proof.Machine.execClearBack payload s
  | .release payload => Sys2Proof.Machine.execRelease payload s
  | .block payload => Sys2Proof.Machine.execBlock payload s
  | .unblock payload => Sys2Proof.Machine.execUnblock payload s
  | .resetTrunk payload => Sys2Proof.Machine.execResetTrunk payload s
  | .queryTrunk payload => Sys2Proof.Machine.execQueryTrunk payload s
  | .measure payload => Sys2Proof.Machine.execMeasure payload s
  | .queryPool payload => Sys2Proof.Machine.execQueryPool payload s
  | .readTraffic payload => Sys2Proof.Machine.execReadTraffic payload s
  | .poll payload => Sys2Proof.Machine.execPoll payload s
  | .readFault payload => Sys2Proof.Machine.execReadFault payload s
  | .clearFault payload => Sys2Proof.Machine.execClearFault payload s
  | .identify payload => Sys2Proof.Machine.execIdentify payload s
  | .reset dest payload => Sys2Proof.Machine.execReset dest payload s
  | .timeMark dest payload => Sys2Proof.Machine.execTimeMark dest payload s
  | .sampleEvent lrx swx => Sys2Proof.Machine.execSampleEvent lrx swx s
  | .characterReceived samples => Sys2Proof.Machine.execCharacterReceived samples s

end Sys2Proof.Machine
end

