-- ==== Sys2Proof/Safety.lean ====
section
/-! DEFINITION. What holds of the unit in every state that a run can reach: the bounds and the consistency of its report
queue, call records, traffic counters, sent codes, settings and alignment state. A run is safe while `State.sound`
holds. -/

namespace Sys2Proof.Machine

/-! ### Reports -/

/-- Two entries are condition reports of one kind for one trunk (R194). -/
def ReportEntry.clashes (a b : ReportEntry) : Prop :=
  a.body.isCondition = true ∧ a.body.kindCode = b.body.kindCode ∧ a.trunk = b.trunk

/-- R192: the repeat count of a sequenced kind is 0, and none exceeds 255 (R194). -/
def ReportEntry.sound (e : ReportEntry) : Prop := (e.body.isCondition = false → e.repeats = 0) ∧ e.repeats ≤ 255

/-- R192, R194, R195, R196: at most 64 entries, no two condition reports of one kind for one trunk, the pin as the
condition of R195 has it, and the threshold within its range. -/
def ReportQueue.sound (q : ReportQueue) : Prop :=
  q.entries.length ≤ Config.reportRoom ∧ q.entries.Pairwise (fun a b => ¬ a.clashes b) ∧ (∀ e ∈ q.entries, e.sound) ∧
    q.attn = q.wantsAttention ∧ 1 ≤ q.threshold ∧ q.threshold ≤ 64

/-! ### Call records and traffic -/

/-- R171, R173: the answer count and the durations are within their bounds, and the conversation never exceeds the
occupancy. -/
def CallRecord.sound (r : CallRecord) : Prop :=
  r.conversation ≤ r.occupancy ∧ r.occupancy ≤ Config.durationMax ∧ r.answerCount ≤ 255

/-- R176: every counter is within 32 bits. -/
def Traffic.sound (c : Traffic) : Prop :=
  c.outAttempts ≤ Config.counterMax ∧ c.outAnswered ≤ Config.counterMax ∧ c.inSeizures ≤ Config.counterMax ∧
    c.inAnswered ≤ Config.counterMax ∧ c.failures ≤ Config.counterMax ∧ c.occupancy ≤ Config.counterMax

/-! ### Trunks -/

/-- R35: an equipped trunk is not in UNEQUIPPED and sends the code of one of its profile's line signals. -/
def Trunk.sendsLegal (profiles : Vector Profile 4) (r : Trunk) : Prop :=
  r.role ≠ .unequipped → r.state ≠ .unequipped ∧ ∃ sig, r.sentCode = (profiles.get r.profile).codes.of sig

/-- A trunk's record is sound: its sent code (R35) and its open call record (R171, R173). -/
def Trunk.sound (profiles : Vector Profile 4) (r : Trunk) : Prop :=
  r.sendsLegal profiles ∧ ∀ k, r.record = some k → k.sound

/-- R24: a both-way trunk names a profile that satisfies the both-way conditions. -/
def Trunk.bothWaySound (profiles : Vector Profile 4) (r : Trunk) : Prop :=
  r.role = .bothWay → (profiles.get r.profile).codes.validBothWay = true

/-! ### Settings -/

/-- R23, R25: a stored profile has passed the code validation, and its numeric settings are within their ranges. -/
def Profile.sound (p : Profile) : Prop := p.codes.valid = true ∧ p.clamped = p

/-- R153: a stored analysis entry has a pattern of 1 to 6 positions and a length of 1 to 24. -/
def AnalysisEntry.sound (e : AnalysisEntry) : Prop :=
  1 ≤ e.patternLength ∧ e.patternLength ≤ 6 ∧ 1 ≤ e.length ∧ e.length ≤ 24

/-! ### Signalling alignment -/

/-- R7 to R13: the counts and timers that each alignment state keeps. -/
def Highway.sound (h : Highway) : Prop :=
  (h.holdTimer.isSome = true ↔ h.alignment = .hold) ∧ (h.holdStart.isSome = true ↔ h.alignment = .hold) ∧
    h.correct < 3 ∧ h.wrong < 4 ∧ 1 ≤ h.holdLimit ∧ h.holdLimit ≤ 255 ∧ (h.trial = true → h.alignment = .searching)

/-! ### The unit -/

/-- Everything of the above, for the whole unit. -/
structure State.sound (s : State) : Prop where
  reports : s.rqa.sound
  trunks : ∀ t, (s.trunk t).sound s.profiles
  bothWay : ∀ t, (s.trunk t).bothWaySound s.profiles
  traffic : ∀ g, (s.traffic.get g).sound
  profiles : ∀ n, (s.profiles.get n).sound
  analysis : ∀ k, (s.analysis.get k).sound
  highway : s.hwi.sound

/-- A run is safe while every state it meets is sound and every command has a next state. -/
def safeStep (s : State) : Prop := ∃ s', step s = .next s' ∧ (s.sound → s'.sound)

end Sys2Proof.Machine
end

