-- ==== Sys2Proof/Claims.lean ====
section
/-! DEFINITION. Words that the statements use: the reset values of the whole unit, what an event leaves alone, the reply
to a command, and the frame that carries a command. -/

namespace Sys2Proof.Machine

/-! ### Reset values -/

/-- R21, R22: the 49 bytes of a profile at its default values. -/
def defaultProfileBytes : List Byte :=
  [1, 0, 1, 1, 3, 5, 2, 7, 7, 0, 0, 0, 0, 0, 10, 3, 1, 0xF4, 0x0B, 0xB8, 2, 0x58, 0, 90, 60, 40, 2, 0xBC, 30, 90, 20,
   0, 200, 0, 250, 10, 10, 4, 10, 7, 0xD0, 0, 64, 6, 0x40, 15, 0, 150, 3]

/-- R33, R34, R148, R149, R157, R168: a trunk's record after any reset. -/
structure Trunk.holdsResetValues (r : Trunk) : Prop where
  configuration : r.role = .unequipped ∧ r.profile = 0 ∧ r.group = 0 ∧ r.glare = .yield ∧ r.localBlock = false
  callFields : r.remoteBlock = false ∧ r.state = .unequipped ∧ r.cause = none ∧ r.sentCode = 7 ∧ r.timer = none ∧
    r.unit = none ∧ r.link = none ∧ r.linkRecord = none ∧ r.callRef = none ∧ r.record = none
  receiver : r.lcr.accepted = none ∧ r.lcr.candidate = none ∧ r.lcr.mode = .line
  engines : r.decadic = none ∧ r.tone = none ∧ r.standing = none
  stores : r.received.digits = [] ∧ r.received.category = none ∧ r.received.endReceived = false ∧
    r.send.digits = [] ∧ r.send.endFlag = false ∧ r.send.pos = 1

/-- The reset values that every reset gives (R13, R29, R33, R88, R152, R170, R176, R180,
R192, R198). -/
structure State.holdsResetValues (t : State) : Prop where
  alignment : t.hwi.alignment = .searching ∧ t.hwi.trial = false ∧ t.hwi.correct = 0 ∧ t.hwi.wrong = 0 ∧
    t.hwi.holdStart = none ∧ t.hwi.holdTimer = none ∧ t.hwi.holdLimit = 20
  profiles : ∀ n, (t.profiles.get n).bytes = defaultProfileBytes
  trunks : ∀ k, (t.trunk k).holdsResetValues
  pool : (∀ u, (t.unit u).status = .free) ∧ t.callQueue = [] ∧ t.testQueue = []
  analysis : ∀ k, (t.analysis.get k).valid = false ∧ (t.analysis.get k).groups = 0 ∧
    (t.analysis.get k).patternLength = 1 ∧ (t.analysis.get k).pattern.get 0 = none ∧
    (t.analysis.get k).outcome = .refuse ∧ (t.analysis.get k).length = 1
  counters : t.sequence = 0 ∧ ∀ g, (t.traffic.get g).bytes = List.replicate 24 0
  reports : t.rqa.sequenceLoss = false ∧ t.rqa.conditionLoss = false ∧ t.rqa.threshold = 4 ∧ t.rqa.holdTime = 10 ∧
    t.rqa.attn = false
  fault : t.fault.held = none ∧ t.fault.further = false
  link : t.clk.receiver.search = .searching ∧ t.clk.collection = .idle ∧ t.clk.buffer = [] ∧ t.clk.reply = none ∧
    t.clk.overrun = false ∧ t.clk.resetPending = false

/-! ### What an event leaves alone -/

/-- The time base, the signalling alignment, the profiles, the analysis table, the outputs, the waiting commands and every
trunk's role, profile, group, glare role, accepted code and candidate are as they were. -/
structure State.keepsSettings (s t : State) : Prop where
  unit : t.pending = s.pending ∧ t.tmb = s.tmb ∧ t.hwi = s.hwi ∧ t.profiles = s.profiles ∧ t.analysis = s.analysis ∧
    t.sgtx = s.sgtx ∧ t.ltx = s.ltx
  trunks : ∀ k, (t.trunk k).role = (s.trunk k).role ∧ (t.trunk k).profile = (s.trunk k).profile ∧
    (t.trunk k).group = (s.trunk k).group ∧ (t.trunk k).glare = (s.trunk k).glare ∧
    (t.trunk k).lcr.accepted = (s.trunk k).lcr.accepted ∧ (t.trunk k).lcr.candidate = (s.trunk k).lcr.candidate

/-- No other trunk's record changes, but for a tone unit that the pool hands on to it, with its context (R92). -/
def State.sparesOthers (s u : State) (t : TrunkNo) : Prop :=
  ∀ k, k ≠ t → u.trunk k = { s.trunk k with unit := (u.trunk k).unit, tone := (u.trunk k).tone }

/-- One traffic counter set of the unit changes as given, and no other (R176). -/
def State.countsFor (s u : State) (t : TrunkNo) (c : Traffic) : Prop :=
  u.traffic.get (s.trunk t).group = c ∧ ∀ g, g ≠ (s.trunk t).group → u.traffic.get g = s.traffic.get g

/-- R194: a sequenced report, stamped with the counter, stands in the queue; only a queue whose sequence-loss flag is set
can have dropped it. -/
def State.reported (s : State) (trunk : Option TrunkNo) (body : ReportBody) : Prop :=
  s.rqa.sequenceLoss = false → { body := body, trunk := trunk, stamp := s.tmb.counter } ∈ s.rqa.entries

/-! ### Tone units and their signals -/

/-- R110, R111: of a group's powers, in the order of their frequency numbers, the two of numbers i and j pass the four
tests: minimum, twist, third tone and purity, in a block that has energy. -/
def decidesPair (amin energy : Nat) (powers : List Nat) (i j : Nat) : Prop :=
  let lo := min (powers.getD i 0) (powers.getD j 0)
  let hi := max (powers.getD i 0) (powers.getD j 0)
  i < j ∧ j < powers.length ∧ (80 * amin) ^ 2 ≤ lo ∧ hi ≤ 4 * lo ∧
    (∀ k < powers.length, k ≠ i → k ≠ j → 16 * powers.getD k 0 ≤ lo) ∧ 240 * energy ≤ 4 * (hi + lo) ∧ energy ≠ 0

/-- R122: a sender sends an item: its forward signal starts afresh with the send amplitude of the profile, and the
interlock timer runs. -/
def State.sends (s : State) (t : TrunkNo) (v : UnitNo) (item : SendItem) (f : ForwardSignal) (lastSent : Option Nat) :
    State :=
  let p := s.profiles.get (s.trunk t).profile
  (s.mapUnit v fun u => { u with
    generation := some { sig := .forward f, amplitude := p.sendAmplitude, n := 0 } }).mapTrunk t fun r => { r with
      tone := some (.sender { phase := .sending, item := some item, lastSent := lastSent, noted := none
                              timer := some { kind := .interlock, left := 1000 * p.interlock } }) }

/-- R122, R127: a sender sends the digit at the send position, or with the store exhausted FT11 where the end flag is
set, and waits under the sender digit wait where it is clear. -/
def State.sendsNext (s : State) (t : TrunkNo) (v : UnitNo) (c : ToneSender) : State :=
  let st := (s.trunk t).send
  if st.pos ≤ st.digits.length then
    s.sends t v (.digit st.pos) (digitSignal (st.digits.getD (st.pos - 1) 0)) (some st.pos)
  else if st.endFlag then s.sends t v .endOfNumber .ft11 c.lastSent
  else s.mapTrunk t fun r => { r with
    tone := some (.sender { c with
      phase := .waiting, noted := none
      timer := some { kind := .senderWait, left := 1000 * (s.profiles.get r.profile).senderDigitWait } }) }

/-- R89, R113, R121, R122, R130: a unit is granted to a trunk: its record starts afresh, and the trunk's context opens,
a sender with its first item, a receiver in LISTENING under the inter-digit wait unless its number is complete. -/
def State.granted (s : State) (v : UnitNo) (t : TrunkNo) : UnitRole → State
  | .sender =>
    ((s.mapUnit v fun _ => { status := .signalling t .sender }).mapTrunk t fun r => { r with
      unit := some { unit := v, role := .sender } }).sendsNext t v
        { phase := .waiting, item := none, lastSent := none, noted := none, timer := none }
  | .receiver =>
    (s.mapUnit v fun _ => { status := .signalling t .receiver }).mapTrunk t fun r =>
      let complete := (r.linkRecord.map (·.inletComplete)).getD false
      { r with
        unit := some { unit := v, role := .receiver }
        tone := some (.receiver
          { phase := .listening, pending := none, categoryAsked := false, complete := complete, heldCeased := false
            timer := if complete then none
              else some { kind := .interDigit, left := 1000 * (s.profiles.get r.profile).interDigitWait } }) }

/-- R92: a unit that has become free goes to the head of the call wait queue, or with that queue empty and no hold in
force to the head of the test wait queue, and otherwise stays free. -/
def State.handsOn (s : State) (v : UnitNo) : State :=
  match s.callQueue, s.testQueue with
  | e :: rest, _ => ({ s with callQueue := rest } : State).granted v e.trunk e.role
  | [], [] => s
  | [], r :: rest =>
    if s.hwi.alignment = .hold then s
    else ({ s with testQueue := rest } : State).mapUnit v fun _ => { status := .measuring r.trunk r.blocks 0 }

/-- R92: the unit that a trunk held, if it held one, becomes free and is handed on. -/
def State.frees (s : State) (held : Option HeldUnit) : State :=
  match held with
  | none => s
  | some h => (s.mapUnit h.unit fun _ => { status := .free }).handsOn h.unit

/-- R90, R91, R99: a call request of a trunk. A unit that measures the trunk's line is granted to it, after the
TEST-RESULT report of the abort; a test request of the trunk is removed with such a report. Then the lowest-numbered free
unit is granted, or the request joins the tail of the call wait queue under the unit wait limit, with a POOL-CONGESTION
report of the new length. -/
def State.asksForUnit (s u : State) (t : TrunkNo) (role : UnitRole) : Prop :=
  (∀ v asked done, (s.unit v).status = .measuring t asked done →
    (∀ w < v, ∀ a d, (s.unit w).status ≠ .measuring t a d) →
    u = (s.submit (some t) (.testResult .abortedSeized done
      (measurementFigures (s.unit v).energySum (s.unit v).powerSums.toList done))).granted v t role) ∧
  ((∀ v a d, (s.unit v).status ≠ .measuring t a d) → ∀ x : State,
    x = (if ∃ r ∈ s.testQueue, r.trunk = t then
        ({ s with testQueue := s.testQueue.filter fun r => r.trunk != t } : State).submit (some t)
          (.testResult .abortedSeized 0 none)
      else s) →
    (∀ v, (s.unit v).status = .free → (∀ w < v, (s.unit w).status ≠ .free) → u = x.granted v t role) ∧
    ((∀ v, (s.unit v).status ≠ .free) →
      u = ({ x with callQueue := s.callQueue ++
          [{ trunk := t, role := role, left := (s.profiles.get (s.trunk t).profile).unitWait }] } : State).submit none
        (.poolCongestion (s.callQueue.length + 1))))

/-- R136, R138, R140: a receiver's unit starts a backward signal, and its context becomes the one given. -/
def State.replies (s : State) (t : TrunkNo) (v : UnitNo) (b : BackwardSignal) (c : ToneReceiver) : State :=
  (s.mapUnit v fun u => { u with
    generation := some { sig := .backward b, amplitude := (s.profiles.get (s.trunk t).profile).sendAmplitude, n := 0 } }).mapTrunk
      t fun r => { r with tone := some (.receiver c) }

/-- R136: a response that carries no outcome: RESPONDING under the interlock timer. -/
def State.responds (s : State) (t : TrunkNo) (v : UnitNo) (b : BackwardSignal) (c : ToneReceiver) : State :=
  s.replies t v b { c with
    phase := .responding
    timer := some { kind := .interlock, left := 1000 * (s.profiles.get (s.trunk t).profile).interlock } }

/-- R139: BT4 carries COMPLETE, BT6 a rejection with cause UNOBTAINABLE and BT5 every other rejection. -/
def outcomeSignal (o : RegOutcome) : BackwardSignal :=
  if o = .complete then .bt4 else if o = .reject .unobtainable then .bt6 else .bt5

/-! ### Outcomes of the register phases -/

/-- R58, R85, R94: a trunk in IN-SELECTING leaves the call wait queue, its filter mode is LINE and a receiving context
becomes the clear watch. With COMPLETE it enters IN-WAIT-ANSWER and reports DIGITS-COMPLETE; with a rejection it enters
IN-REJECTED, takes the cause where it had none, reports REGISTER-END and counts a failure. -/
def State.endsIn (s : State) (t : TrunkNo) (o : RegOutcome) : State :=
  let p := s.profiles.get (s.trunk t).profile
  let x : State := ({ s with callQueue := s.callQueue.filter fun e => e.trunk != t } : State).mapTrunk t fun r => { r with
    lcr := { r.lcr with mode := .line }
    decadic := r.decadic.map fun
      | .receiving c => .watching { line := c.line, clearRec := c.clearRec }
      | c => c }
  match o with
  | .complete =>
    (x.mapTrunk t fun r => { r with state := .inWaitAnswer, sentCode := p.codes.bAck }).submit (some t)
      (.digitsComplete (s.trunk t).callRef (s.trunk t).received.category (s.trunk t).received.digits)
  | .reject cause =>
    ((x.mapTrunk t fun r => { r with
      state := .inRejected, sentCode := p.codes.bClearback, cause := some (r.cause.getD cause) }).submit (some t)
        (.registerEnd (s.trunk t).callRef (if cause = .unobtainable then .unobtainable else .congestion)
          (some cause))).countFor t fun c => { c with failures := min 4294967295 (c.failures + 1) }

/-- R46, R51: a trunk in OUT-SELECTING ends its register phase. With COMPLETE it enters OUT-WAIT-ANSWER under the answer
wait unless that is 0; with a rejection it enters OUT-REJECTED, takes the cause where it had none and counts a failure;
either way it reports REGISTER-END. -/
def State.endsOut (s : State) (t : TrunkNo) (o : RegOutcome) : State :=
  let p := s.profiles.get (s.trunk t).profile
  match o with
  | .complete =>
    (s.mapTrunk t fun r => { r with
      decadic := none, state := .outWaitAnswer, sentCode := p.codes.fSeize
      timer := if p.answerWait = 0 then r.timer
        else some { kind := .answerWait, left := 1000 * p.answerWait } }).submit (some t)
          (.registerEnd (s.trunk t).callRef .complete none)
  | .reject cause =>
    ((s.mapTrunk t fun r => { r with
      decadic := none, state := .outRejected, sentCode := p.codes.fSeize
      cause := some (r.cause.getD cause) }).submit (some t)
        (.registerEnd (s.trunk t).callRef (if cause = .unobtainable then .unobtainable else .congestion)
          (some cause))).countFor t fun c => { c with failures := min 4294967295 (c.failures + 1) }

/-- R121, R126, R129: a tone sender's context ends, its unit is freed and handed on, and its outcome is taken. -/
def State.senderEnds (s : State) (t : TrunkNo) (o : RegOutcome) : State :=
  ((s.mapTrunk t fun r => { r with tone := none, unit := none }).frees (s.trunk t).unit).endsOut t o

/-- R138: a tone receiver's outcome as its response: FINAL under the interlock timer, and the outcome taken. -/
def State.respondsLast (s : State) (t : TrunkNo) (v : UnitNo) (c : ToneReceiver) (o : RegOutcome) : State :=
  (s.replies t v (outcomeSignal o) { c with
    phase := .final, pending := none
    timer := some { kind := .interlock, left := 1000 * (s.profiles.get (s.trunk t).profile).interlock } }).endsIn t o

/-- R140: a tone receiver's outcome as a pulse: PULSING under the pulse timer, and the outcome taken. -/
def State.pulses (s : State) (t : TrunkNo) (v : UnitNo) (c : ToneReceiver) (o : RegOutcome) : State :=
  (s.replies t v (outcomeSignal o) { c with
    phase := .pulsing, pending := none
    timer := some { kind := .pulse, left := (s.profiles.get (s.trunk t).profile).pulseDuration } }).endsIn t o

/-- R139: an outcome from outside reaches a tone receiver without a pending outcome. -/
def State.takesOutcome (s : State) (t : TrunkNo) (v : UnitNo) (c : ToneReceiver) (o : RegOutcome) : State :=
  match c.phase with
  | .held => if c.heldCeased then s.pulses t v c o else s.respondsLast t v c o
  | .listening => s.pulses t v c o
  | .responding => s.mapTrunk t fun r => { r with
    tone := some (.receiver { c with pending := some { outcome := o, own := false } }) }
  | .pulsing => s
  | .final => s

/-- R47, R49, R61: the register work of a trunk in no relay link that waits for no unit ends: its contexts and the unit it
held are given up, the filter mode is LINE, and the record changes further as given. -/
def State.endsWork (s : State) (t : TrunkNo) (f : Trunk → Trunk) : State :=
  (s.mapTrunk t fun r => f { r with
    decadic := none, tone := none, unit := none, lcr := { r.lcr with mode := .line } }).frees (s.trunk t).unit

/-- R40, R94: the register work of a trunk in no relay link ends as in `endsWork`, and an entry of the trunk in the call
wait queue is removed. -/
def State.quitsWork (s : State) (t : TrunkNo) (f : Trunk → Trunk) : State :=
  ({ s with callQueue := s.callQueue.filter fun e => e.trunk != t } : State).endsWork t f

/-! ### The decoding of the accepted code on entry to a state -/

/-- R65: a remote-block flag that is set is cleared, with a REMOTE-UNBLOCK report. -/
def State.unblocks (s : State) (t : TrunkNo) : State :=
  if (s.trunk t).remoteBlock then (s.mapTrunk t fun r => { r with remoteBlock := false }).submit (some t) .remoteUnblock
  else s

/-- R65: a remote-block flag that is clear is set, with a REMOTE-BLOCK report. -/
def State.blocks (s : State) (t : TrunkNo) : State :=
  if (s.trunk t).remoteBlock then s
  else (s.mapTrunk t fun r => { r with remoteBlock := true }).submit (some t) .remoteBlock

/-- R36, R37, R38, R65: a trunk in IDLE decodes its accepted code, by the rows of R37 for its role; in any other state
nothing is decoded here. -/
def State.idleDecodes (s : State) (t : TrunkNo) : State :=
  let r := s.trunk t
  let c := (s.profiles.get r.profile).codes
  let taken := (s.blocks t).mapTrunk t fun r => { r with state := .remoteBlocked, sentCode := c.fIdle }
  match r.lcr.accepted with
  | none => s
  | some code =>
    let unlisted := s.submit (some t) (.lineAnomaly code .unexpectedCode)
    if r.state ≠ .idle then s
    else if r.role = .incoming then
      if code = c.fSeize then s.incomingSeizure t else if code = c.fIdle ∨ code = c.fClear then s else unlisted
    else if r.role = .bothWay then
      if code = c.fSeize then s.incomingSeizure t else if code = c.bBlock then taken
      else if code = c.fIdle then s.unblocks t else if code = c.fClear then s else unlisted
    else if code = c.bBlock then taken else if code = c.bIdle then s.unblocks t else unlisted

/-- R41, R38: the call of a trunk in no relay link ends with a cause: its register work, stores, timer, reference and
standing go, the record closes with a RELEASED report, the cause field is cleared, and the trunk is in IDLE, or in
LOCAL-BLOCKED where its local-block flag is set. -/
def State.callEnds (s : State) (t : TrunkNo) (cause : Cause) : State :=
  let x := s.quitsWork t fun r =>
    let st : TrunkState := if r.localBlock then .localBlocked else .idle
    { r with
      received := { digits := [], category := none, endReceived := false }
      send := { digits := [], endFlag := false, pos := 1 }
      timer := none, callRef := none, standing := none, record := none, cause := none, state := st
      sentCode := sentCodeOf (s.profiles.get r.profile).codes r.role st }
  match (s.trunk t).record with
  | none => x
  | some k => x.submit (some t) (.released { record := k, releaseTime := s.tmb.counter, cause := cause })

/-- R36, R37, R38, R55, R65: a trunk in OUT-CLEARING decodes its accepted code: B-GUARD first, which changes nothing;
B-IDLE and B-BLOCK complete the release, and the trunk, where it is in IDLE, decodes the code again; B-ACK, B-ANSWER and
B-CLEARBACK change nothing. -/
def State.clearingDecodes (s : State) (t : TrunkNo) : State :=
  let c := (s.profiles.get (s.trunk t).profile).codes
  let cause := (s.trunk t).cause.getD .normal
  match (s.trunk t).lcr.accepted with
  | none => s
  | some code =>
    if code = c.bGuard then s
    else if code = c.bIdle then ((s.unblocks t).callEnds t cause).idleDecodes t
    else if code = c.bBlock then (s.callEnds t cause).idleDecodes t
    else if code = c.bAck ∨ code = c.bAnswer ∨ code = c.bClearback then s
    else s.submit (some t) (.lineAnomaly code .unexpectedCode)

/-- R50, R54: a trunk in no relay link clears forward, as it stands before its accepted code is decoded. -/
def State.clearsOut (s : State) (t : TrunkNo) (cause : Option Cause) : State :=
  s.quitsWork t fun r => { r with
    cause := cause, state := .outClearing, sentCode := (s.profiles.get r.profile).codes.fClear
    timer := some { kind := .release, left := (s.profiles.get r.profile).releaseTimer } }

/-- R41, R42: the call of a trunk in no relay link ends and the trunk fails: the RELEASED and TRUNK-FAILED reports, the
failure counted, and a fault capture of kind TRUNK-FAILED naming the trunk. -/
def State.fails (s : State) (t : TrunkNo) (recordCause failure : Cause) : State :=
  let x := s.quitsWork t fun r => { r with
    received := { digits := [], category := none, endReceived := false }
    send := { digits := [], endFlag := false, pos := 1 }
    timer := none, callRef := none, standing := none, record := none, cause := some failure, state := .failed
    sentCode := sentCodeOf (s.profiles.get r.profile).codes r.role .failed }
  let x := match (s.trunk t).record with
    | none => x
    | some k => x.submit (some t) (.released { record := k, releaseTime := s.tmb.counter, cause := recordCause })
  let x := (x.submit (some t) (.trunkFailed failure (s.trunk t).callRef)).countFor t fun c => { c with
    failures := min 4294967295 (c.failures + 1) }
  { x with fault := match x.fault.held with
    | none => { held := some { kind := .trunkFailed, trunk := some t, time := s.tmb.counter }, further := false }
    | some _ => { x.fault with further := true } }

/-! ### Relay links -/

/-- R159, R166: a relay link dissolves, with its LINK-END report. -/
def State.linkEnds (s : State) (inlet outlet : TrunkNo) (ending : LinkEnding) (outcome : Option RegResult) : State :=
  ((s.mapTrunk inlet fun r => { r with link := none, linkRecord := none }).mapTrunk outlet fun r => { r with
    link := none, linkRecord := none }).submit (some inlet)
      (.linkEnd outlet ending outcome (((s.trunk inlet).linkRecord.map (·.relayed)).getD 0))

/-- R164: an inlet takes the outcome carried back: its tone receiver as an outcome from outside (R139), which a pending
outcome keeps out, and any other inlet at once. -/
def State.inletTakes (s : State) (inlet : TrunkNo) (o : RegOutcome) : State :=
  match (s.trunk inlet).tone, (s.trunk inlet).unit with
  | some (.receiver c), some h => if c.pending = none then s.takesOutcome inlet h.unit c o else s
  | _, _ => s.endsIn inlet o

/-- R164: the outlet's register phase has ended: the link dissolves with end OUTLET, and carries the outcome. -/
def State.carries (s : State) (inlet outlet : TrunkNo) (o : RegOutcome) : State :=
  (s.linkEnds inlet outlet .outlet (some (match o with
    | .complete => .complete
    | .reject cause => if cause = .unobtainable then .unobtainable else .congestion))).inletTakes inlet o

/-- R165, R50: the link dissolves from the inlet's side, and the outlet clears forward with cause INLET-CLEARED. -/
def State.inletLeaves (s : State) (inlet outlet : TrunkNo) : State :=
  let x := s.linkEnds inlet outlet .inlet none
  (x.clearsOut outlet (some ((x.trunk outlet).cause.getD .inletCleared))).clearingDecodes outlet

/-- R61: what a clear-forward leaves on a trunk in no relay link that waits for no tone unit. -/
structure State.clearedForward (s u : State) (t : TrunkNo) : Prop where
  state : (u.trunk t).state = .inGuard ∧ (u.trunk t).sentCode = (s.profiles.get (s.trunk t).profile).codes.bGuard
  timer : (u.trunk t).timer = some { kind := .guard, left := (s.profiles.get (s.trunk t).profile).guardTimer }
  engines : (u.trunk t).decadic = none ∧ (u.trunk t).tone = none ∧ (u.trunk t).unit = none ∧
    (u.trunk t).lcr.mode = .line
  call : (u.trunk t).record = (s.trunk t).record ∧ (u.trunk t).callRef = (s.trunk t).callRef ∧
    (u.trunk t).cause = (s.trunk t).cause ∧ (u.trunk t).received = (s.trunk t).received
  report : u.reported (some t) (.clearForward (s.trunk t).callRef)
  frame : s.keepsSettings u ∧ s.sparesOthers u t ∧ u.clk = s.clk ∧ u.traffic = s.traffic ∧ u.sequence = s.sequence
  whole : u = (s.endsWork t fun r => { r with
    state := .inGuard, sentCode := (s.profiles.get r.profile).codes.bGuard
    timer := some { kind := .guard, left := (s.profiles.get r.profile).guardTimer } }).submit (some t)
      (.clearForward (s.trunk t).callRef)

/-- R41, R42: what the failing of a trunk in no relay link that waits for no tone unit leaves: the call ended with the
record's cause, and the trunk in FAILED with the failure cause. -/
structure State.failedCall (s u : State) (t : TrunkNo) (recordCause failure : Cause) : Prop where
  state : (u.trunk t).state = .failed ∧ (u.trunk t).cause = some failure ∧
    (u.trunk t).sentCode = sentCodeOf (s.profiles.get (s.trunk t).profile).codes (s.trunk t).role .failed
  call : (u.trunk t).record = none ∧ (u.trunk t).callRef = none ∧ (u.trunk t).timer = none ∧
    (u.trunk t).received = {} ∧ (u.trunk t).send = {} ∧ (u.trunk t).standing = none
  engines : (u.trunk t).decadic = none ∧ (u.trunk t).tone = none ∧ (u.trunk t).unit = none
  released : ∀ r, (s.trunk t).record = some r →
    u.reported (some t) (.released { record := r, releaseTime := s.tmb.counter, cause := recordCause })
  failed : u.reported (some t) (.trunkFailed failure (s.trunk t).callRef)
  count : s.countsFor u t { s.traffic.get (s.trunk t).group with
    failures := min 4294967295 ((s.traffic.get (s.trunk t).group).failures + 1) }
  fault : (∀ f, s.fault.held = some f → u.fault.held = some f ∧ u.fault.further = true) ∧ (s.fault.held = none →
    (s.rqa.entries.length + (if (s.trunk t).record = none then 1 else 2) ≤ 64 → u.fault =
      { held := some { kind := .trunkFailed, trunk := some t, time := s.tmb.counter }, further := false }) ∧
    (64 < s.rqa.entries.length + (if (s.trunk t).record = none then 1 else 2) → u.fault =
      { held := some { kind := .reportLoss, trunk := some t, time := s.tmb.counter }, further := true }))
  frame : s.keepsSettings u ∧ s.sparesOthers u t ∧ u.clk = s.clk ∧ u.sequence = s.sequence
  whole : u = s.fails t recordCause failure

/-- R50, R54: what clearing forward leaves on a trunk in no relay link, before its accepted code is decoded: no report is
made. -/
structure State.clearedOut (s u : State) (t : TrunkNo) (cause : Option Cause) : Prop where
  state : (u.trunk t).state = .outClearing ∧ (u.trunk t).sentCode = (s.profiles.get (s.trunk t).profile).codes.fClear ∧
    (u.trunk t).cause = cause
  timer : (u.trunk t).timer = some { kind := .release, left := (s.profiles.get (s.trunk t).profile).releaseTimer }
  engines : (u.trunk t).decadic = none ∧ (u.trunk t).tone = none ∧ (u.trunk t).unit = none ∧
    (u.trunk t).lcr.mode = .line
  call : (u.trunk t).record = (s.trunk t).record ∧ (u.trunk t).callRef = (s.trunk t).callRef
  frame : s.keepsSettings u ∧ s.sparesOthers u t ∧ u.traffic = s.traffic ∧ u.sequence = s.sequence ∧ u.rqa = s.rqa ∧
    u.fault = s.fault

/-- R41, R38: what the end of a call leaves on a trunk in no relay link, before its accepted code is decoded: the trunk in
IDLE, or in LOCAL-BLOCKED where its local-block flag is set. -/
structure State.freedCall (s u : State) (t : TrunkNo) (recordCause : Cause) : Prop where
  state : (u.trunk t).state = (if (s.trunk t).localBlock then .localBlocked else .idle) ∧ (u.trunk t).cause = none ∧
    (u.trunk t).sentCode = sentCodeOf (s.profiles.get (s.trunk t).profile).codes (s.trunk t).role (u.trunk t).state
  call : (u.trunk t).record = none ∧ (u.trunk t).callRef = none ∧ (u.trunk t).timer = none ∧
    (u.trunk t).received = {} ∧ (u.trunk t).send = {} ∧ (u.trunk t).standing = none
  engines : (u.trunk t).decadic = none ∧ (u.trunk t).tone = none ∧ (u.trunk t).unit = none ∧
    (u.trunk t).lcr.mode = .line
  released : ∀ r, (s.trunk t).record = some r →
    u.reported (some t) (.released { record := r, releaseTime := s.tmb.counter, cause := recordCause })
  frame : s.keepsSettings u ∧ s.sparesOthers u t ∧ u.traffic = s.traffic ∧ u.sequence = s.sequence

/-- R46: what a rejection of the outgoing register phase leaves on a trunk in no relay link. -/
structure State.rejectedOut (s u : State) (t : TrunkNo) (cause : Cause) : Prop where
  state : (u.trunk t).state = .outRejected ∧ (u.trunk t).cause = some ((s.trunk t).cause.getD cause) ∧
    (u.trunk t).sentCode = (s.profiles.get (s.trunk t).profile).codes.fSeize ∧ (u.trunk t).decadic = none
  call : (u.trunk t).record = (s.trunk t).record ∧ (u.trunk t).callRef = (s.trunk t).callRef ∧
    (u.trunk t).timer = (s.trunk t).timer ∧ (u.trunk t).send = (s.trunk t).send
  report : u.reported (some t) (.registerEnd (s.trunk t).callRef
    (if cause = .unobtainable then .unobtainable else .congestion) (some cause))
  count : s.countsFor u t { s.traffic.get (s.trunk t).group with
    failures := min 4294967295 ((s.traffic.get (s.trunk t).group).failures + 1) }
  frame : s.keepsSettings u ∧ s.sparesOthers u t ∧ u.clk = s.clk ∧ u.sequence = s.sequence

/-- R58, R85: what an outcome of the incoming register phase leaves on a trunk in no relay link, in all but the state:
the filter mode LINE, and in place of a receiving context the clear watch. -/
structure State.endedIn (s u : State) (t : TrunkNo) : Prop where
  receiver : (u.trunk t).lcr.mode = .line ∧ (∀ c, (s.trunk t).decadic = some (.receiving c) →
    (u.trunk t).decadic = some (.watching { line := c.line, clearRec := c.clearRec }))
  call : (u.trunk t).record = (s.trunk t).record ∧ (u.trunk t).callRef = (s.trunk t).callRef ∧
    (u.trunk t).timer = (s.trunk t).timer ∧ (u.trunk t).received = (s.trunk t).received
  frame : s.keepsSettings u ∧ s.sparesOthers u t ∧ u.clk = s.clk ∧ u.sequence = s.sequence

/-- R58: a rejection of the incoming register phase. -/
def State.rejectedIn (s u : State) (t : TrunkNo) (cause : Cause) : Prop :=
  s.endedIn u t ∧ (u.trunk t).state = .inRejected ∧
    (u.trunk t).sentCode = (s.profiles.get (s.trunk t).profile).codes.bClearback ∧
    (u.trunk t).cause = some ((s.trunk t).cause.getD cause) ∧
    u.reported (some t) (.registerEnd (s.trunk t).callRef
      (if cause = .unobtainable then .unobtainable else .congestion) (some cause)) ∧
    s.countsFor u t { s.traffic.get (s.trunk t).group with
      failures := min 4294967295 ((s.traffic.get (s.trunk t).group).failures + 1) }

/-- R58: COMPLETE in the incoming register phase. -/
def State.completedIn (s u : State) (t : TrunkNo) : Prop :=
  s.endedIn u t ∧ (u.trunk t).state = .inWaitAnswer ∧
    (u.trunk t).sentCode = (s.profiles.get (s.trunk t).profile).codes.bAck ∧ (u.trunk t).cause = (s.trunk t).cause ∧
    u.reported (some t) (.digitsComplete (s.trunk t).callRef (s.trunk t).received.category (s.trunk t).received.digits) ∧
    u.traffic = s.traffic

/-! ### Commands on the link -/

/-- The individually addressed frame of a TYPE and a payload, with its LEN and its CHECK (10, Frames). -/
def ownFrame (type_ : Byte) (payload : List Byte) : Frame :=
  { dest := .own
    errored := false
    data := [byte (payload.length + 1), type_] ++ payload ++ [checkOf ([byte (payload.length + 1), type_] ++ payload)] }

/-- The state after the unit has heard characters with clean line levels on CMD. -/
def State.hears (s : State) : List Character → State
  | [] => s
  | x :: xs =>
    match exec (.characterReceived x.samples) s with
    | .next u => u.hears xs
    | _ => s

/-- R178, R182: the characters of a frame: its header, with marker 1, and its data characters. -/
def frameCharacters (f : Frame) (header : Byte) : List Character :=
  { data := header, marker := true, framingError := false } ::
    f.data.map fun b => { data := b, marker := false, framingError := false }

/-- R184: the message types, each with its command. -/
def messageTypes : List (Byte × (List Byte → Instr)) :=
  [(0x01, .setProfile), (0x02, .getProfile), (0x03, .setTrunk), (0x04, .setAnalysis), (0x05, .getAnalysis),
   (0x06, .setReporting), (0x10, .seize), (0x11, .addDigits), (0x12, .acceptDigits), (0x13, .answer),
   (0x14, .clearBack), (0x15, .release), (0x16, .block), (0x17, .unblock), (0x18, .resetTrunk), (0x19, .queryTrunk),
   (0x20, .measure), (0x21, .queryPool), (0x22, .readTraffic), (0x30, .poll), (0x31, .readFault), (0x32, .clearFault),
   (0x33, .identify), (0x34, .reset .own), (0x35, .timeMark .own)]

end Sys2Proof.Machine
end

