-- ==== Sys2Proof/Certificates/Slice0/Obligations.lean ====
section
/-! DEFINITION. The statements for the provers. Each docstring says what the statement claims and names the rules it
rests on. -/

open Sys2Proof Sys2Proof.Machine

/-- For every command c, every queue rest and every state s, the step of s with c at the front of its queue is exec c
on s with the rest; with an empty queue the step answers s itself. (00_scope.md, 95_what_each_step_holds.md.) The
queue of waiting commands and the idling are the model's own (log entry 3). -/
def Obligations.StepTakesTheFrontCommand : Prop :=
  (∀ (c : Instr) (rest : List Instr) (s : State), step (s.withPending (c :: rest)) = exec c (s.withPending rest)) ∧
    ∀ s : State, step (s.withPending []) = .next (s.withPending [])

/-- For every command and every state exec answers a next state, never a fault or a refusal. The queue of waiting
commands, which is the model's own, is unchanged by it. (00_scope.md, 95_what_each_step_holds.md.) The spec gives
every command an effect on every operand; a due event that is not due changes nothing (log entry 2). The clause on the
queue is the model's choice (log entry 3), and for the resets it rests on log entry 19. -/
def Obligations.EveryCommandHasANextState : Prop :=
  ∀ (c : Instr) (s : State), ∃ u, exec c s = .next u ∧ u.pending = s.pending

/-- After POWER-ON RESET and after PIN RESET, from any state and with any straps: the counter and dividers are 0 and
the source INTERNAL, the unit SEARCHING, the profiles default, the trunks UNEQUIPPED, the pool free, the analysis
table, traffic counters, sequence, report settings and fault record at their reset values; the address and the rate
are those of the straps; FAULT shows an invalid address; and the report queue holds one STARTUP report with the reset
cause. (R3, R4, R13, R17, R29, R33, R152, R176, R179, R180, R181, R200.) The reset rules of the chapters; the pattern
positions 2 to 6 of a reset analysis entry, which the spec leaves open (log entry 20), are not claimed. -/
def Obligations.PowerOnAndPinResetGiveTheResetValues : Prop :=
  ∀ (straps : Straps) (s : State), ∀ c ∈ [(Instr.powerOnReset straps, ResetCause.power), (.pinReset straps, .pin)],
    ∃ u, exec c.1 s = .next u ∧ u.holdsResetValues ∧
      u.tmb = { counter := 0, source := .crystal, fsPresent := false, frameDiv := 0, tickDiv := 0,
                frameDue := false, tickDue := false } ∧
      u.clk.address = ~~~straps.addr ∧ u.clk.rate = straps.rate ∧
      (u.clk.addressValid = true ↔ lowPins straps % 2 = 1 ∧ u.clk.address ≠ 31) ∧
      (u.faultPin = true ↔ u.clk.addressValid = false) ∧
      u.rqa.entries = [{ body := .startup c.2 1 u.clk.address u.clk.addressValid, trunk := none, stamp := 0,
                         repeats := 0, age := 0 }]

/-- A broadcast RESET gives the reset values, leaves the counter, time source and dividers, the address and the rate,
and reports STARTUP with cause COMMAND and the counter as stamp; an individual RESET only replies OK, and the reset
follows when the reply is complete; a payload is refused with BAD-LENGTH, and ignored on broadcast. (R4, R13, R17,
R29, R33, R152, R170, R176, R180, R185, R187, R200.) The moment of the individual reset is the end of its reply (10,
RESET). -/
def Obligations.ResetCommandGivesTheResetValues : Prop :=
  ∀ (s : State) (p : List Byte),
    (∃ u, exec (.reset .broadcast []) s = .next u ∧ u.holdsResetValues ∧ u.tmb = s.tmb ∧
      u.clk.address = s.clk.address ∧ u.clk.addressValid = s.clk.addressValid ∧ u.clk.rate = s.clk.rate ∧
      u.rqa.entries = [{ body := .startup .command 1 s.clk.address s.clk.addressValid, trunk := none,
                         stamp := s.tmb.counter, repeats := 0, age := 0 }]) ∧
    (∃ u, exec (.reset .own []) s = .next u ∧
      u = { s.sendReply 0x34 .ok [] with clk := { (s.sendReply 0x34 .ok []).clk with resetPending := true } } ∧
      exec .replyComplete u = exec (.reset .broadcast []) u) ∧
    (p ≠ [] → exec (.reset .broadcast p) s = .next s ∧ exec (.reset .own p) s = .next (s.sendReply 0x34 .badLength []))

/-- TIME-MARK with four bytes loads the counter with them, most significant byte first, and changes nothing else but
the reply of an individual one; the next millisecond event makes the counter one more than the value; any other length
changes nothing and is refused with BAD-LENGTH where it is addressed to the unit. (R6, R187.) The layout of the four
bytes, the reply, BAD-LENGTH and the discarded broadcast are R187's. -/
def Obligations.TimeMarkLoadsTheCounter : Prop :=
  ∀ (s : State) (a b c d : Byte) (p : List Byte),
    exec (.timeMark .broadcast [a, b, c, d]) s = .next { s with tmb := { s.tmb with counter := a ++ b ++ c ++ d } } ∧
    exec (.timeMark .own [a, b, c, d]) s =
      .next (({ s with tmb := { s.tmb with counter := a ++ b ++ c ++ d } } : State).sendReply 0x35 .ok []) ∧
    (∀ x ∈ [Dest.own, .broadcast], ∀ u v, exec (.timeMark x [a, b, c, d]) s = .next u →
      exec .millisecondEvent u = .next v → v.tmb.counter = a ++ b ++ c ++ d + 1) ∧
    (p.length ≠ 4 → exec (.timeMark .broadcast p) s = .next s ∧
      exec (.timeMark .own p) s = .next (s.sendReply 0x35 .badLength []))

/-- FS EDGE sets FS present and the source HIGHWAY and changes nothing else. FS LOSS with FS present sets FS absent
and the source INTERNAL; in SEARCHING it also ends a trial and clears its count, and in HOLD it clears the count of
correct words; nothing else changes. (R2, R3, R9.) -/
def Obligations.FrameSyncEdgeAndLossOutsideAligned : Prop :=
  ∀ s : State,
    exec .fsEdge s = .next { s with tmb := { s.tmb with fsPresent := true, source := .highway } } ∧
    (s.tmb.fsPresent = true → s.hwi.alignment = .searching → exec .fsLoss s =
      .next { s with tmb := { s.tmb with fsPresent := false, source := .crystal }
                     hwi := { s.hwi with trial := false, correct := 0 } }) ∧
    (s.tmb.fsPresent = true → s.hwi.alignment = .hold → exec .fsLoss s =
      .next { s with tmb := { s.tmb with fsPresent := false, source := .crystal }, hwi := { s.hwi with correct := 0 } })

/-- A millisecond event adds 1 to the counter, counts both dividers and makes every second one a transmit frame event
and every tenth a duration tick, ages every queued report, judges ATTN afresh and counts the hold limit timer; outside
HOLD it counts every trunk timer, engine timer and wait queue timer down by 1, and in HOLD none; a trunk without a
context stays without one; everything else is unchanged. (R3, R4, R5, R10, R12, R68, R192, R195.) A timer stops at 0
and its expiry is a command of its own (log entries 2 and 4). -/
def Obligations.MillisecondEventCountsEveryTimer : Prop :=
  ∀ s : State, ∃ u, exec .millisecondEvent s = .next u ∧
    u.tmb = { s.tmb with
      counter := s.tmb.counter + 1, frameDiv := (s.tmb.frameDiv + 1) % 2, tickDiv := (s.tmb.tickDiv + 1) % 10
      frameDue := u.tmb.frameDue, tickDue := u.tmb.tickDue } ∧
    (u.tmb.frameDue = true ↔ s.tmb.frameDue = true ∨ s.tmb.frameDiv = 1) ∧
    (u.tmb.tickDue = true ↔ s.tmb.tickDue = true ∨ s.tmb.tickDiv = 9) ∧
    u.rqa = { s.rqa with entries := u.rqa.entries, attn := u.rqa.attn } ∧
    u.rqa.entries = s.rqa.entries.map (fun e => { e with age := e.age + 1 }) ∧
    (u.rqa.attn = true ↔ ∃ e rest, u.rqa.entries = e :: rest ∧
      (u.rqa.threshold ≤ rest.length + 1 ∨ 10 * u.rqa.holdTime ≤ e.age)) ∧
    u.hwi = { s.hwi with holdTimer := s.hwi.holdTimer.map fun k => { spent := k.spent + 1, left := k.left - 1 } } ∧
    (s.hwi.alignment = .hold → u.trunks = s.trunks ∧ u.callQueue = s.callQueue ∧ u.testQueue = s.testQueue) ∧
    (s.hwi.alignment ≠ .hold →
      u.callQueue = s.callQueue.map (fun e => { e with left := e.left - 1 }) ∧
      u.testQueue = s.testQueue.map (fun e => { e with left := e.left - 1 }) ∧
      ∀ t, u.trunk t = { s.trunk t with
          timer := (u.trunk t).timer, decadic := (u.trunk t).decadic, tone := (u.trunk t).tone } ∧
        (u.trunk t).timer = (s.trunk t).timer.map (fun k => { k with left := k.left - 1 }) ∧
        (∀ c, (s.trunk t).tone = some (.sender c) → (u.trunk t).tone =
          some (.sender { c with timer := c.timer.map fun k => { k with left := k.left - 1 } })) ∧
        (∀ c, (s.trunk t).tone = some (.receiver c) → (u.trunk t).tone =
          some (.receiver { c with timer := c.timer.map fun k => { k with left := k.left - 1 } })) ∧
        (∀ c, (s.trunk t).decadic = some (.sending c) → (u.trunk t).decadic =
          some (.sending { c with timer := c.timer.map (· - 1) })) ∧
        (∀ c, (s.trunk t).decadic = some (.receiving c) → (u.trunk t).decadic =
          some (.receiving { c with
            since := c.since + 1
            wait := c.wait.map fun w => { w with left := w.left - 1 }
            digitEnd := c.digitEnd.map (· - 1)
            clearRec := c.clearRec.map (· - 1) })) ∧
        (∀ c, (s.trunk t).decadic = some (.watching c) → (u.trunk t).decadic =
          some (.watching { c with clearRec := c.clearRec.map (· - 1) })) ∧
        ((s.trunk t).decadic = none → (u.trunk t).decadic = none) ∧ ((s.trunk t).tone = none → (u.trunk t).tone = none)) ∧
    u.pending = s.pending ∧ u.profiles = s.profiles ∧ u.units = s.units ∧ u.analysis = s.analysis ∧
    u.sequence = s.sequence ∧ u.traffic = s.traffic ∧ u.clk = s.clk ∧ u.fault = s.fault ∧ u.sgtx = s.sgtx ∧ u.ltx = s.ltx

/-- In ALIGNED with FS present, FS LOSS, or a received frame with a wrong alignment word after three wrong ones, puts
the unit into HOLD with the hold limit timer running: it reports HOLD-START with its cause, captures a HOLD-START
fault or sets the further-faults flag, discards every candidate, marks decadic digits in sending as interrupted,
clears every unit's previous decision and count, and leaves every other field of every trunk as it is. Where no unit
measures, the queues, units and tone contexts stand; where no call waits, each measuring unit reports TEST-RESULT
ABORTED-HOLD over its blocks and becomes free. (R8, R9, R10, R16, R68, R77, R97, R98, R100, R115, R198.) Where a unit
measures while a call waits, what the freed unit does is R92's and is not claimed here. -/
def Obligations.HoldStartsOnFsLossOrTheFourthWrongWord : Prop :=
  ∀ (s : State) (c : Instr) (cause : HoldCause), s.hwi.alignment = .aligned → s.tmb.fsPresent = true →
    (c = .fsLoss ∧ cause = .fsLoss) ∨
      (∃ f, c = .receivedFrameEvent f ∧ frameWord f ≠ 0b01110010#8 ∧ s.hwi.wrong = 3 ∧ cause = .alignment) →
    ∃ u, exec c s = .next u ∧
      u.hwi = { s.hwi with alignment := .hold, correct := 0, wrong := 0, holdStart := some s.tmb.counter,
                           holdTimer := some { spent := 0, left := 100 * s.hwi.holdLimit } } ∧
      u.tmb = (if c = .fsLoss then { s.tmb with fsPresent := false, source := .crystal } else s.tmb) ∧
      u.reported none (.holdStart cause) ∧
      (s.fault.held = none → u.rqa.sequenceLoss = false →
        u.fault.held = some { kind := .holdStart, trunk := none, time := s.tmb.counter }) ∧
      (∀ f, s.fault.held = some f → u.fault.held = some f ∧ u.fault.further = true) ∧
      (∀ t, u.trunk t = { s.trunk t with
        lcr := { (s.trunk t).lcr with candidate := none }
        decadic := (u.trunk t).decadic, unit := (u.trunk t).unit, tone := (u.trunk t).tone }) ∧
      (∀ t k, (s.trunk t).decadic = some (.sending k) → (u.trunk t).decadic =
        some (.sending { k with interrupted := k.phase == .breaking || k.phase == .making })) ∧
      (∀ t, (∀ k, (s.trunk t).decadic ≠ some (.sending k)) → (u.trunk t).decadic = (s.trunk t).decadic) ∧
      ((∀ v k a d, (s.unit v).status ≠ .measuring k a d) →
        u.callQueue = s.callQueue ∧ u.testQueue = s.testQueue ∧ ∀ v, u.unit v = { s.unit v with
          recognition := { (s.unit v).recognition with previous := .cleared, count := 0 } }) ∧
      ((∀ v k a d, (s.unit v).status ≠ .measuring k a d) →
        ∀ t, (u.trunk t).unit = (s.trunk t).unit ∧ (u.trunk t).tone = (s.trunk t).tone) ∧
      (s.callQueue = [] → u.callQueue = [] ∧ u.testQueue = s.testQueue ∧
        (∀ t, (u.trunk t).unit = (s.trunk t).unit ∧ (u.trunk t).tone = (s.trunk t).tone) ∧
        ∀ v k a d, (s.unit v).status = .measuring k a d → u.unit v = { status := .free } ∧
          u.reported (some k) (.testResult .abortedHold d
            (measurementFigures (s.unit v).energySum (s.unit v).powerSums.toList d))) ∧
      u.profiles = s.profiles ∧ u.analysis = s.analysis ∧ u.sequence = s.sequence ∧ u.traffic = s.traffic ∧
      u.clk = s.clk ∧ u.pending = s.pending ∧ u.sgtx = s.sgtx ∧ u.ltx = s.ltx

/-- In SEARCHING with FS present: a wrong word ends the trial; a correct word without a trial starts one with count 1;
a correct word at count 1 makes it 2; a correct word at count 2 makes the unit ALIGNED and takes the frame as a
received frame in ALIGNED is taken. (R7, R8.) -/
def Obligations.HuntNeedsThreeCorrectWords : Prop :=
  ∀ (s : State) (f : SigFrame), s.hwi.alignment = .searching → s.tmb.fsPresent = true →
    (frameWord f ≠ 0b01110010#8 → exec (.huntAlignmentWord f) s =
      .next { s with hwi := { s.hwi with trial := false, correct := 0 } }) ∧
    (frameWord f = 0b01110010#8 → s.hwi.trial = false → exec (.huntAlignmentWord f) s =
      .next { s with hwi := { s.hwi with trial := true, correct := 1 } }) ∧
    (frameWord f = 0b01110010#8 → s.hwi.trial = true → s.hwi.correct = 1 → exec (.huntAlignmentWord f) s =
      .next { s with hwi := { s.hwi with correct := 2 } }) ∧
    (frameWord f = 0b01110010#8 → s.hwi.trial = true → s.hwi.correct = 2 → exec (.huntAlignmentWord f) s =
      exec (.receivedFrameEvent f)
        { s with hwi := { s.hwi with alignment := .aligned, trial := false, correct := 0, wrong := 0 } })

/-- In ALIGNED with FS present a frame with the correct word clears the count of wrong words and hands each trunk, T0
first, its 3-bit code of the frame; a frame with a wrong word and fewer than three before it only raises the count of
wrong words. (R1, R8, R14.) Each code is acted on as it is handed (log entry 7). -/
def Obligations.ReceivedFrameIsTakenOrSkipped : Prop :=
  ∀ (s : State) (f : SigFrame), s.hwi.alignment = .aligned → s.tmb.fsPresent = true →
    (frameWord f = 0b01110010#8 → exec (.receivedFrameEvent f) s =
      .next ((List.finRange 32).foldl (fun x t => x.takeCode t (f.extractLsb' (93 - 3 * t.val) 3))
        { s with hwi := { s.hwi with wrong := 0 } })) ∧
    (frameWord f ≠ 0b01110010#8 → s.hwi.wrong < 3 → exec (.receivedFrameEvent f) s =
      .next { s with hwi := { s.hwi with wrong := s.hwi.wrong + 1 } })

/-- On an equipped trunk without a candidate, k consecutive frames with a code other than the accepted one leave it as
a candidate with count k while k is below the persistence of the filter mode, and at the persistence make it the
accepted code, which is then decoded. A frame with the accepted code discards the candidate; an UNEQUIPPED trunk takes
no code. (R14, R15, R17.) -/
def Obligations.LineCodeFilterAcceptsAtItsPersistence : Prop :=
  (∀ (s : State) (t : TrunkNo) (code : LineCode) (k n : Nat),
    (s.trunk t).role ≠ .unequipped → (s.trunk t).lcr.accepted ≠ some code → (s.trunk t).lcr.candidate = none →
    n = (if (s.trunk t).lcr.mode = .line then (s.profiles.get (s.trunk t).profile).linePersistence
      else (s.profiles.get (s.trunk t).profile).pulsePersistence) →
    (0 < k → k < n → Nat.repeat (fun x => x.takeCode t code) k s =
      s.mapTrunk t fun r => { r with lcr := { r.lcr with candidate := some { code := code, count := k } } }) ∧
    (0 < k → k = n → Nat.repeat (fun x => x.takeCode t code) k s =
      (s.mapTrunk t fun r => { r with lcr := { r.lcr with accepted := some code, candidate := none } }).decodeLine t)) ∧
  (∀ (s : State) (t : TrunkNo) (code : LineCode),
    ((s.trunk t).role = .unequipped → s.takeCode t code = s) ∧
    ((s.trunk t).role ≠ .unequipped → (s.trunk t).lcr.accepted = some code → s.takeCode t code =
      s.mapTrunk t fun r => { r with lcr := { r.lcr with candidate := none } }))

/-- A transmit frame event puts on SGTX the word 01110010 and then the sent codes of T0 to T31, three bits each, and
changes nothing else. A duration tick adds 1 to the occupancy of every open record and of its group, and to the
conversation of one whose trunk is in an answered state, but in HOLD only where the profile counts hold; every count
stops at its highest value and nothing else changes. (R1, R4, R173, R176.) -/
def Obligations.TransmitFramesAndDurationTicks : Prop :=
  (∀ s : State, s.tmb.frameDue = true → ∃ f : SigFrame,
    exec .transmitFrameEvent s = .next { s with tmb := { s.tmb with frameDue := false }, sgtx := some f } ∧
    (∀ k : Fin 8, f.getMsbD k.val = (0b01110010#8).getMsbD k.val) ∧
    ∀ (t : TrunkNo) (k : Fin 3), f.getMsbD (8 + 3 * t.val + k.val) = ((s.trunk t).sentCode).getMsbD k.val) ∧
  (∀ s : State, s.tmb.tickDue = true → (∀ g, (s.traffic.get g).occupancy ≤ 4294967295) →
    ∃ u, exec .durationTick s = .next u ∧
      (∀ t, u.trunk t = { s.trunk t with record := (s.trunk t).record.map fun r =>
        { r with
          occupancy := min 16777215 (r.occupancy + 1)
          conversation :=
            if ((s.trunk t).state = .outAnswered ∨ (s.trunk t).state = .inAnswered) ∧
                (s.hwi.alignment = .hold → (s.profiles.get (s.trunk t).profile).holdCount = true) then
              min 16777215 (r.conversation + 1)
            else r.conversation } }) ∧
      (∀ g, u.traffic.get g = { s.traffic.get g with
        occupancy := min 4294967295 ((s.traffic.get g).occupancy +
          (List.finRange 32).countP fun t => (s.trunk t).record.isSome && (s.trunk t).group == g) }) ∧
      u = { s with tmb := { s.tmb with tickDue := false }, trunks := u.trunks, traffic := u.traffic })

/-- In HOLD with FS present a wrong word clears the count and the first two correct words raise it. The third makes
the unit ALIGNED, clears the hold timer and reports HOLD-END with the time spent. Where the frame brings no trunk a
new code, an interrupted decadic sender sends F-SEIZE and takes a pause, one that waits with a digit added in hold
takes a pause, a receiver that was counting rejects its digit, every other field of every trunk stands, and with no
call waiting the free units, lowest number first, are granted to the waiting test requests in order; nothing else
changes. (R10, R11, R16, R77, R87, R101.) The hold ends before the frame's codes are taken (log entry 8). -/
def Obligations.ThirdCorrectWordEndsTheHold : Prop :=
  ∀ (s : State) (f : SigFrame), s.hwi.alignment = .hold → s.tmb.fsPresent = true →
    (frameWord f ≠ 0b01110010#8 → exec (.holdAlignmentWord f) s = .next { s with hwi := { s.hwi with correct := 0 } }) ∧
    (frameWord f = 0b01110010#8 → s.hwi.correct < 2 → exec (.holdAlignmentWord f) s =
      .next { s with hwi := { s.hwi with correct := s.hwi.correct + 1 } }) ∧
    ∀ start, frameWord f = 0b01110010#8 → s.hwi.correct = 2 → s.hwi.holdStart = some start →
      ∃ u, exec (.holdAlignmentWord f) s = .next u ∧ u.tmb = s.tmb ∧
        u.hwi = { s.hwi with alignment := .aligned, correct := 0, wrong := 0, holdStart := none, holdTimer := none } ∧
        u.reported none (.holdEnd (s.tmb.counter - start)) ∧
        ((∀ t, (s.trunk t).role = .unequipped ∨ (s.trunk t).lcr.accepted = some (frameCode f t)) → ∀ t,
          (u.trunk t).state = (s.trunk t).state ∧ (u.trunk t).timer = (s.trunk t).timer ∧
          (∀ c, (s.trunk t).decadic = some (.sending c) → c.interrupted = true →
            (u.trunk t).sentCode = (s.profiles.get (s.trunk t).profile).codes.fSeize ∧ (u.trunk t).decadic =
              some (.sending { c with phase := .pause, interrupted := false,
                                      timer := some (s.profiles.get (s.trunk t).profile).sendPause })) ∧
          (∀ c, (s.trunk t).decadic = some (.receiving c) → c.phase = .counting → (u.trunk t).decadic =
              some (.receiving { c with phase := .rejecting, pulses := 0 })) ∧
          (∀ c, (s.trunk t).decadic = some (.sending c) → c.interrupted = false → c.phase = .waiting → c.timer = none →
            (u.trunk t).decadic = some (.sending { c with
              phase := .pause, timer := some (s.profiles.get (s.trunk t).profile).sendPause })) ∧
          ((∀ c, (s.trunk t).decadic = some (.sending c) → c.interrupted = false ∧ (c.phase = .waiting → c.timer ≠ none)) →
            (∀ c, (s.trunk t).decadic = some (.receiving c) → c.phase ≠ .counting) →
            (u.trunk t).decadic = (s.trunk t).decadic) ∧
          ((∀ c, (s.trunk t).decadic = some (.sending c) → c.interrupted = false) →
            (u.trunk t).sentCode = (s.trunk t).sentCode) ∧
          u.trunk t = { s.trunk t with
            lcr := { (s.trunk t).lcr with
              candidate := if (s.trunk t).role = .unequipped then (s.trunk t).lcr.candidate else none }
            sentCode := (u.trunk t).sentCode, decadic := (u.trunk t).decadic }) ∧
        ((∀ t, (s.trunk t).role = .unequipped ∨ (s.trunk t).lcr.accepted = some (frameCode f t)) →
          u.callQueue = s.callQueue ∧
          (s.callQueue ≠ [] → u.units = s.units ∧ u.testQueue = s.testQueue) ∧
          (∀ free : List UnitNo, free = (List.finRange 8).filter (fun v => (s.unit v).status == .free) → s.callQueue = [] →
            u.testQueue = s.testQueue.drop free.length ∧
            (∀ (k : Nat) (v : UnitNo) (r : TestWait), free[k]? = some v → s.testQueue[k]? = some r →
              u.unit v = { status := .measuring r.trunk r.blocks 0 }) ∧
            (∀ (k : Nat) v, free[k]? = some v → s.testQueue[k]? = none → u.unit v = s.unit v) ∧
            ∀ v, v ∉ free → u.unit v = s.unit v) ∧
          u.profiles = s.profiles ∧ u.analysis = s.analysis ∧ u.sequence = s.sequence ∧ u.traffic = s.traffic ∧
          u.clk = s.clk ∧ u.pending = s.pending ∧ u.sgtx = s.sgtx ∧ u.ltx = s.ltx ∧
          u.rqa = (s.submit none (.holdEnd (s.tmb.counter - start))).rqa ∧
          u.fault = (s.submit none (.holdEnd (s.tmb.counter - start))).fault)

/-- The expiry of the hold limit timer in HOLD makes the unit SEARCHING, captures a HOLD-LIMIT fault, makes every
accepted code UNKNOWN, and puts every trunk in call into FAILED with cause HOLD-LIMIT, its record closed by a RELEASED
report, its stores, timers, engines and link gone and a TRUNK-FAILED report made; a trunk in no call keeps its state,
sent code and cause. (R12, R17, R41, R42, R69, R198.) -/
def Obligations.HoldLimitFailsEveryTrunkInCall : Prop :=
  ∀ (s : State) (k : HoldTimer), s.hwi.alignment = .hold → s.hwi.holdTimer = some k → k.left = 0 →
    ∃ u, exec .holdLimitExpiry s = .next u ∧
      u.hwi = { s.hwi with alignment := .searching, trial := false, correct := 0, wrong := 0, holdStart := none,
                           holdTimer := none } ∧
      u.tmb = s.tmb ∧ u.clk = s.clk ∧ u.profiles = s.profiles ∧ u.analysis = s.analysis ∧ u.sequence = s.sequence ∧
      (s.fault.held = none → u.fault.held = some { kind := .holdLimit, trunk := none, time := s.tmb.counter }) ∧
      (∀ x, s.fault.held = some x → u.fault.held = some x ∧ u.fault.further = true) ∧
      ∀ t, (u.trunk t).lcr.accepted = none ∧ (u.trunk t).lcr.candidate = none ∧
        ((s.trunk t).state.inCall = false → (u.trunk t).state = (s.trunk t).state ∧
          (u.trunk t).sentCode = (s.trunk t).sentCode ∧ (u.trunk t).cause = (s.trunk t).cause ∧
          (u.trunk t).record = (s.trunk t).record) ∧
        ((s.trunk t).state.inCall = true → (u.trunk t).state = .failed ∧ (u.trunk t).cause = some .holdLimit ∧
          (u.trunk t).sentCode = sentCodeOf (s.profiles.get (s.trunk t).profile).codes (s.trunk t).role .failed ∧
          (u.trunk t).timer = none ∧ (u.trunk t).unit = none ∧ (u.trunk t).link = none ∧ (u.trunk t).callRef = none ∧
          (u.trunk t).record = none ∧ (u.trunk t).decadic = none ∧ (u.trunk t).tone = none ∧
          (u.trunk t).received = {} ∧ (u.trunk t).send = {} ∧ (u.trunk t).standing = none ∧
          (∀ r, (s.trunk t).record = some r →
            u.reported (some t) (.released { record := r, releaseTime := s.tmb.counter, cause := .holdLimit })) ∧
          u.reported (some t) (.trunkFailed .holdLimit (s.trunk t).callRef))

/-- F-SEIZE accepted in IDLE on an INCOMING or BOTH-WAY trunk takes the next sequence number as call reference, opens
an incoming record, counts the seizure for the group, sends B-ACK, reports SEIZED-IN and starts the register phase of
the profile's method: none completes at once, DECADIC opens a receiving context with pulse filtering and the
first-digit wait, TONE takes over a unit that measures the line, or the lowest-numbered free unit, or joins the call
wait queue with a POOL-CONGESTION report. The state after is given whole, so nothing else changes. (R57, R58, R78,
R89, R90, R91, R99, R130, R169, R170, R176.) -/
def Obligations.FarSeizureOpensAnIncomingCall : Prop :=
  ∀ (s u : State) (t : TrunkNo) (p : Profile), p = s.profiles.get (s.trunk t).profile → (s.trunk t).state = .idle →
    (s.trunk t).role = .incoming ∨ (s.trunk t).role = .bothWay → (s.trunk t).lcr.accepted = some p.codes.fSeize →
    u = s.decodeLine t →
      u.sequence = s.sequence + 1 ∧ (u.trunk t).callRef = some (s.sequence + 1) ∧
      (u.trunk t).record = some
        { ref := s.sequence + 1, trunk := t, direction := .incoming, category := none, seizeTime := s.tmb.counter,
          ackTime := none, answerTime := none, answerCount := 0, digits := [], conversation := 0, occupancy := 0 } ∧
      (u.trunk t).sentCode = p.codes.bAck ∧
      u.reported (some t) (.seizedIn (some (s.sequence + 1))) ∧
      s.countsFor u t { s.traffic.get (s.trunk t).group with
        inSeizures := min 4294967295 ((s.traffic.get (s.trunk t).group).inSeizures + 1) } ∧
      (p.method = .noRegister → (u.trunk t).state = .inWaitAnswer ∧ u.reported (some t)
        (.digitsComplete (some (s.sequence + 1)) (s.trunk t).received.category (s.trunk t).received.digits)) ∧
      (p.method = .decadic → (u.trunk t).state = .inSelecting ∧ (u.trunk t).lcr.mode = .pulse ∧
        (u.trunk t).decadic = some (.receiving
          { phase := .between, line := .made, since := 0, pulses := 0,
            wait := some { kind := .firstDigit, left := 1000 * p.firstDigitWait }, digitEnd := none, clearRec := none,
            complete := false })) ∧
      (p.method = .tone → (u.trunk t).state = .inSelecting ∧
        ((∃ v, (u.trunk t).unit = some { unit := v, role := .receiver }) ∨
          ∃ e ∈ u.callQueue, e.trunk = t ∧ e.role = .receiver)) ∧
      s.keepsSettings u ∧ s.sparesOthers u t ∧
      ∀ y : State, y = ((({ s with sequence := s.sequence + 1 } : State).mapTrunk t fun r => { r with
          callRef := some (s.sequence + 1)
          record := some
            { ref := s.sequence + 1, trunk := t, direction := .incoming, category := none, seizeTime := s.tmb.counter,
              ackTime := none, answerTime := none, answerCount := 0, digits := [], conversation := 0, occupancy := 0 }
          state := .inSelecting, sentCode := p.codes.bAck }).countFor t fun c => { c with
            inSeizures := min 4294967295 (c.inSeizures + 1) }).submit (some t) (.seizedIn (some (s.sequence + 1))) →
        (p.method = .noRegister → u = y.endsIn t .complete) ∧
        (p.method = .decadic → u = y.mapTrunk t fun r => { r with
          lcr := { r.lcr with mode := .pulse }
          decadic := some (.receiving
            { phase := .between, line := .made, since := 0, pulses := 0,
              wait := some { kind := .firstDigit, left := 1000 * p.firstDigitWait }, digitEnd := none, clearRec := none,
              complete := false }) }) ∧
        (p.method = .tone → y.asksForUnit u t .receiver)

/-- B-ACK accepted in OUT-SEIZING stamps the acknowledge time, reports ACKNOWLEDGED, keeps sending F-SEIZE and by the
profile's method enters OUT-WAIT-ANSWER with its answer-wait timer, or OUT-SELECTING with a decadic pause, or
OUT-SELECTING with a tone unit (the one that measures the line, or the lowest-numbered free one) or a place in the
call wait queue with a POOL-CONGESTION report. The state after is given whole, so nothing else changes. (R44, R51,
R73, R89, R90, R91, R99, R122, R171.) -/
def Obligations.AcknowledgementStartsTheRegisterPhase : Prop :=
  ∀ (s u : State) (t : TrunkNo) (p : Profile), p = s.profiles.get (s.trunk t).profile →
    (s.trunk t).state = .outSeizing → (s.trunk t).lcr.accepted = some p.codes.bAck → u = s.decodeLine t →
      (u.trunk t).callRef = (s.trunk t).callRef ∧
      (u.trunk t).record = (s.trunk t).record.map (fun r => { r with ackTime := some s.tmb.counter }) ∧
      (u.trunk t).sentCode = p.codes.fSeize ∧
      u.reported (some t) (.acknowledged (s.trunk t).callRef) ∧
      (p.method = .noRegister → (u.trunk t).state = .outWaitAnswer ∧ (u.trunk t).timer =
        if p.answerWait = 0 then none else some { kind := .answerWait, left := 1000 * p.answerWait }) ∧
      (p.method = .decadic → (u.trunk t).state = .outSelecting ∧ (u.trunk t).timer = none ∧
        (u.trunk t).decadic = some (.sending
          { phase := .pause, breaks := 0, interrupted := false, timer := some p.sendPause })) ∧
      (p.method = .tone → (u.trunk t).state = .outSelecting ∧ (u.trunk t).timer = none ∧
        ((∃ v, (u.trunk t).unit = some { unit := v, role := .sender }) ∨
          ∃ e ∈ u.callQueue, e.trunk = t ∧ e.role = .sender)) ∧
      u.sequence = s.sequence ∧ u.traffic = s.traffic ∧ s.keepsSettings u ∧ s.sparesOthers u t ∧
      (p.method = .noRegister → u = (s.mapTrunk t fun r => { r with
        record := r.record.map fun k => { k with ackTime := some s.tmb.counter }
        state := .outWaitAnswer, sentCode := p.codes.fSeize
        timer := if p.answerWait = 0 then none else some { kind := .answerWait, left := 1000 * p.answerWait } }).submit
          (some t) (.acknowledged (s.trunk t).callRef)) ∧
      (p.method = .decadic → u = (s.mapTrunk t fun r => { r with
        record := r.record.map fun k => { k with ackTime := some s.tmb.counter }
        state := .outSelecting, sentCode := p.codes.fSeize, timer := none
        decadic := some (.sending { phase := .pause, breaks := 0, interrupted := false, timer := some p.sendPause }) }).submit
          (some t) (.acknowledged (s.trunk t).callRef)) ∧
      (p.method = .tone → ((s.mapTrunk t fun r => { r with
        record := r.record.map fun k => { k with ackTime := some s.tmb.counter }
        state := .outSelecting, sentCode := p.codes.fSeize, timer := none }).submit
          (some t) (.acknowledged (s.trunk t).callRef)).asksForUnit u t .sender)

/-- F-CLEAR decoded in an IN-* state, or on a DECADIC trunk the expiry of the clear-recognition timer, ends the
register work, hands on the tone unit held, sends B-GUARD, starts the guard timer and reports CLEAR-FORWARD; the
record, reference and cause stay. The state after is given whole, so nothing else changes. (R40, R61, R83, R86, R92.)
Stated for a trunk in no relay link that waits for no unit. -/
def Obligations.ClearForwardPutsTheTrunkIntoGuard : Prop :=
  ∀ (s : State) (t : TrunkNo) (p : Profile), p = s.profiles.get (s.trunk t).profile →
    (s.trunk t).link = none → (∀ e ∈ s.callQueue, e.trunk ≠ t) →
    ((s.trunk t).state ∈ [TrunkState.inSelecting, .inWaitAnswer, .inAnswered, .inClearback, .inRejected] →
      p.method ≠ .decadic → (s.trunk t).lcr.accepted = some p.codes.fClear → p.codes.fSeize ≠ p.codes.fClear →
      s.clearedForward (s.decodeLine t) t) ∧
    (s.hwi.alignment ≠ .hold → (s.trunk t).clearRecognition = some 0 →
      ∃ u, exec (.clearRecognitionExpiry t) s = .next u ∧ s.clearedForward u t)

/-- The ack timer's expiry in OUT-SEIZING and the release timer's in OUT-CLEARING end the call: the record closes with
a RELEASED report, a TRUNK-FAILED report is made, the failure is counted, stores, timer and engines are cleared and
the trunk is FAILED with cause ACK-TIMEOUT or RELEASE-TIMEOUT and its code for FAILED. An empty fault record takes a
fault of kind TRUNK-FAILED naming the trunk, with the counter value, or of kind REPORT-LOSS where one of these reports
finds 64 entries; a fault already held stays and the further-faults flag is set. (R41, R42, R45, R56, R175, R176,
R194, R198.) Stated for a trunk in no relay link that waits for no unit. -/
def Obligations.AckAndReleaseTimerExpiriesFailTheTrunk : Prop :=
  (∀ (s : State) (t : TrunkNo), s.hwi.alignment ≠ .hold → (s.trunk t).state = .outSeizing →
    (s.trunk t).timer = some { kind := .ack, left := 0 } → (s.trunk t).link = none → (∀ e ∈ s.callQueue, e.trunk ≠ t) →
    ∃ u, exec (.ackTimerExpiry t) s = .next u ∧ s.failedCall u t .ackTimeout .ackTimeout) ∧
  (∀ (s : State) (t : TrunkNo), s.hwi.alignment ≠ .hold → (s.trunk t).state = .outClearing →
    (s.trunk t).timer = some { kind := .release, left := 0 } → (∀ e ∈ s.callQueue, e.trunk ≠ t) →
    ∃ u, exec (.releaseTimerExpiry t) s = .next u ∧
      s.failedCall u t ((s.trunk t).cause.getD .releaseTimeout) .releaseTimeout)

/-- A digit that ends on a decadic inlet in IN-SELECTING is stored there and, beyond the deleted places, appended to
the outlet's send store and counted as relayed, and an outlet sender that waits takes it at once; where that store is
full the link dissolves with LINK-END OVERFLOW, the inlet, decadic or tone, is rejected with CONGESTION and the outlet
clears forward with cause OVERFLOW. The outlet's COMPLETE and every rejection in OUT-SELECTING, early answer,
clear-back before answer, ack timeout, yielding to a far seizure, RELEASE and RESET-TRUNK dissolve the link with
LINK-END OUTLET and carry COMPLETE, UNOBTAINABLE or CONGESTION by the table of R164, in the stated order of reports. A
digit wait expiry, a host rejection, a clear-forward and RESET-TRUNK at the inlet dissolve it with LINK-END INLET and
clear the outlet forward with cause INLET-CLEARED. A tone inlet takes what is carried as an outcome from outside.
(R46, R50, R139, R151, R159, R162, R164, R165, R166, 03_trunk_supervision.md, 04_decadic_digits.md,
07_interlocked_tone_signalling.md.) The order of REGISTER-END and LINK-END of one event, ACCEPT-DIGITS and the
overflow included, is log entry 9 (DEDUCED); that the outlet's unit is handed on before the link carries its outcome
is log entry 27 (DEDUCED); that a remote-block flag is cleared before the action taken at the same code is log entry
21 (DEDUCED). -/
def Obligations.RelayLinkRelaysDigitsAndDissolves : Prop :=
  (∀ (s : State) (inlet outlet : TrunkNo) (l : LinkRecord) (c : DecadicReceiver) (p q : Profile), inlet ≠ outlet →
    p = s.profiles.get (s.trunk inlet).profile → q = s.profiles.get (s.trunk outlet).profile →
    s.hwi.alignment ≠ .hold → (∀ e ∈ s.callQueue, e.trunk ≠ inlet ∧ e.trunk ≠ outlet) →
    (s.trunk inlet).link = some { peer := outlet, part := .inlet } → (s.trunk inlet).linkRecord = some l →
    (s.trunk inlet).state = .inSelecting → (s.trunk inlet).decadic = some (.receiving c) → (s.trunk inlet).tone = none →
    (s.trunk outlet).link = some { peer := inlet, part := .outlet } → (s.trunk outlet).role ≠ .unequipped →
    (s.trunk outlet).state = .outSeizing → (s.trunk outlet).decadic = none → (s.trunk outlet).tone = none →
    (s.trunk outlet).unit = none → (s.trunk outlet).lcr.accepted = none →
    (∀ d : Digit, c.phase = .counting → c.digitEnd = some 0 → c.pulses = (if d.val = 0 then 10 else d.val) →
      p.mode = .host → (s.trunk inlet).received.digits.length < 24 → (s.trunk outlet).send.digits.length < 24 →
      exec (.digitEndTimerExpiry inlet) s = .next (((s.mapTrunk inlet fun r => { r with
        received := { r.received with digits := r.received.digits ++ [d] }
        record := r.record.map fun k => { k with digits := k.digits ++ [d] }
        linkRecord := some (if l.delete ≤ r.received.digits.length then { l with relayed := l.relayed + 1 } else l)
        decadic := some (.receiving { c with
          phase := .between, pulses := 0, digitEnd := none
          wait := some { kind := .interDigit, left := 1000 * p.interDigitWait } }) }).mapTrunk outlet fun r => { r with
        send := { r.send with digits := r.send.digits ++
          if l.delete ≤ (s.trunk inlet).received.digits.length then [d] else [] } }).submit (some inlet)
        (.digitProgress (s.trunk inlet).received.category (s.trunk inlet).received.endReceived
          ((s.trunk inlet).received.digits ++ [d])))) ∧
    (∃ u : State, exec (.release [byte outlet.val]) s = .next (u.sendReply 0x15 .ok []) ∧
      u.reported (some inlet) (.linkEnd outlet .outlet (some .congestion) l.relayed) ∧
      u.reported (some inlet) (.registerEnd (s.trunk inlet).callRef .congestion (some .congestion)) ∧
      (∀ t ∈ [inlet, outlet], (u.trunk t).link = none ∧ (u.trunk t).linkRecord = none) ∧
      (u.trunk inlet).state = .inRejected ∧ (u.trunk inlet).sentCode = p.codes.bClearback ∧
      (u.trunk outlet).state = .outClearing ∧ (u.trunk outlet).sentCode = q.codes.fClear ∧
      (u.trunk outlet).cause = (s.trunk outlet).cause ∧ ∀ t ∉ [inlet, outlet], u.trunk t = s.trunk t) ∧
    (c.phase = .between → c.wait = some { kind := .firstDigit, left := 0 } →
      ∃ u : State, exec (.decadicDigitWaitExpiry inlet) s = .next u ∧
        u.reported (some inlet) (.linkEnd outlet .inlet none l.relayed) ∧
        u.reported (some inlet) (.registerEnd (s.trunk inlet).callRef .congestion (some .digitTimeout)) ∧
        (∀ t ∈ [inlet, outlet], (u.trunk t).link = none ∧ (u.trunk t).linkRecord = none) ∧
        (u.trunk inlet).state = .inRejected ∧ (u.trunk inlet).sentCode = p.codes.bClearback ∧
        (u.trunk outlet).state = .outClearing ∧ (u.trunk outlet).sentCode = q.codes.fClear ∧
        (u.trunk outlet).cause = some ((s.trunk outlet).cause.getD .inletCleared) ∧
        ∀ t ∉ [inlet, outlet], u.trunk t = s.trunk t)) ∧
  (∀ (s : State) (inlet outlet : TrunkNo) (l : LinkRecord) (c : ToneReceiver) (h : HeldUnit) (q : Profile)
      (cut : State → State), inlet ≠ outlet → q = s.profiles.get (s.trunk outlet).profile →
      (∀ e ∈ s.callQueue, e.trunk ≠ inlet ∧ e.trunk ≠ outlet) →
      (s.trunk inlet).link = some { peer := outlet, part := .inlet } → (s.trunk inlet).linkRecord = some l →
      (s.trunk inlet).state = .inSelecting → (s.trunk inlet).tone = some (.receiver c) → c.pending = none →
      (s.trunk inlet).unit = some h →
      (s.trunk outlet).link = some { peer := inlet, part := .outlet } → (s.trunk outlet).role ≠ .unequipped →
      (∀ x : State, cut x = (x.mapTrunk inlet fun r => { r with link := none, linkRecord := none }).mapTrunk outlet
        fun r => { r with link := none, linkRecord := none }) →
      ((s.trunk outlet).state = .outSeizing → (s.trunk outlet).unit = none → (s.trunk outlet).lcr.accepted = none →
        exec (.release [byte outlet.val]) s = .next (((((cut s).submit (some inlet)
          (.linkEnd outlet .outlet (some .congestion) l.relayed)).takesOutcome inlet h.unit c (.reject .congestion)).mapTrunk
            outlet fun r => { r with
              decadic := none, tone := none, unit := none, lcr := { r.lcr with mode := .line }
              state := .outClearing, sentCode := q.codes.fClear
              timer := some { kind := .release, left := q.releaseTimer } }).sendReply 0x15 .ok [])) ∧
      (∀ (k : ToneSender) (x : ToneSignal) (b : BackwardSignal) (o : RegOutcome) (r : RegResult),
        (s.trunk outlet).state = .outSelecting → (s.trunk outlet).tone = some (.sender k) → k.phase = .answered →
        k.noted = some b → (b, o, r) ∈ [(BackwardSignal.bt4, RegOutcome.complete, RegResult.complete),
          (.bt5, .reject .congestion, .congestion), (.bt6, .reject .unobtainable, .unobtainable)] →
        s.toneEvent outlet (.ceased x) = ((cut (s.senderEnds outlet o)).submit (some inlet)
          (.linkEnd outlet .outlet (some r) l.relayed)).takesOutcome inlet h.unit c o) ∧
      ∀ (code : Byte) (cause : Cause) (x : State), (code, cause) ∈ [((1 : Byte), Cause.congestion), (2, .unobtainable)] →
        l.inletComplete = false → (s.trunk inlet).role ≠ .unequipped → x = s.inletLeaves inlet outlet →
        exec (.acceptDigits [byte inlet.val, code]) s =
          .next ((x.takesOutcome inlet h.unit c (.reject cause)).sendReply 0x12 .ok [])) ∧
  (∀ (s : State) (inlet outlet : TrunkNo) (q : Profile) (x : RegOutcome → State), inlet ≠ outlet →
    q = s.profiles.get (s.trunk outlet).profile → (s.trunk inlet).link = some { peer := outlet, part := .inlet } →
    (s.trunk outlet).link = some { peer := inlet, part := .outlet } → (s.trunk inlet).state = .inSelecting →
    (∀ c, (s.trunk inlet).tone = some (.receiver c) → (s.trunk inlet).unit.isSome = true) →
    (s.trunk outlet).unit = none ∨ (∀ e ∈ s.callQueue, e.trunk ≠ outlet) →
    (∀ o, x o = (s.quitsWork outlet id).carries inlet outlet o) →
    (∀ o cause, o = .complete ∨ (o = .reject cause ∧ cause ∈ [Cause.noUnit, .digitTimeout, .interlockTimeout, .protocol,
        .congestion, .unobtainable]) → (s.trunk outlet).state = .outSelecting →
      s.outOutcome outlet o = (s.endsOut outlet o).carries inlet outlet
        (if o = .complete ∨ o = .reject .unobtainable then o else .reject .congestion)) ∧
    (∀ k, s.hwi.alignment ≠ .hold → (s.trunk outlet).state = .outSelecting → (s.trunk outlet).decadic = some (.sending k) →
      k.timer = some 0 →
      (k.phase = .pause → (s.trunk outlet).send.digits[(s.trunk outlet).send.pos - 1]? = none →
        (s.trunk outlet).send.endFlag = true →
        exec (.pauseTimerExpiry outlet) s = .next ((s.endsOut outlet .complete).carries inlet outlet .complete)) ∧
      (k.phase = .waiting → exec (.decadicSenderDigitWait outlet) s =
        .next ((s.endsOut outlet (.reject .digitTimeout)).carries inlet outlet (.reject .congestion)))) ∧
    ((s.trunk outlet).state = .outSelecting → (s.trunk outlet).lcr.accepted = some q.codes.bAnswer →
      q.codes.bAnswer ≠ q.codes.bAck →
      s.decodeLine outlet = (((x .complete).mapTrunk outlet fun r => { r with
          state := .outAnswered, sentCode := q.codes.fSeize, timer := none
          record := r.record.map fun k => { k with
            answerTime := some (k.answerTime.getD s.tmb.counter), answerCount := min 255 (k.answerCount + 1) } }).countFor
        outlet fun c => { c with outAnswered := min 4294967295 (c.outAnswered + 1) }).submit (some outlet)
          (.answer (s.trunk outlet).callRef)) ∧
    ((s.trunk outlet).state = .outSelecting → (s.trunk outlet).lcr.accepted = some q.codes.bClearback →
      q.codes.bClearback ≠ q.codes.bAck → q.codes.bClearback ≠ q.codes.bAnswer →
      s.decodeLine outlet = (((x (.reject .congestion)).mapTrunk outlet fun r => { r with
          state := .outRejected, sentCode := q.codes.fSeize, timer := none
          cause := some (r.cause.getD .congestion) }).submit (some outlet)
        (.registerEnd (s.trunk outlet).callRef .congestion (some ((s.trunk outlet).cause.getD .congestion)))).countFor outlet
          fun c => { c with failures := min 4294967295 (c.failures + 1) }) ∧
    (s.hwi.alignment ≠ .hold → (s.trunk outlet).state = .outSeizing →
      (s.trunk outlet).timer = some { kind := .ack, left := 0 } →
      exec (.ackTimerExpiry outlet) s = .next ((x (.reject .congestion)).fails outlet .ackTimeout .ackTimeout)) ∧
    ((s.trunk outlet).state = .outSeizing → (s.trunk outlet).role = .bothWay → (s.trunk outlet).glare = .yield →
      (s.trunk outlet).lcr.accepted = some q.codes.fSeize → q.codes.fSeize ≠ q.codes.bAck →
      s.decodeLine outlet = ((((s.submit (some outlet) (.glare (s.trunk outlet).callRef)).mapTrunk outlet fun r => { r with
        timer := none, record := none, send := { digits := [], endFlag := false, pos := 1 } }).carries inlet outlet
          (.reject .congestion)).incomingSeizure outlet)) ∧
    ((s.trunk outlet).state = .outSeizing ∨ (s.trunk outlet).state = .outSelecting → (s.trunk outlet).role ≠ .unequipped →
      exec (.release [byte outlet.val]) s = .next ((((x (.reject .congestion)).clearsOut outlet
        (s.trunk outlet).cause).clearingDecodes outlet).sendReply 0x15 .ok []) ∧
      exec (.resetTrunk [byte outlet.val]) s = .next ((((x (.reject .congestion)).callEnds outlet .reset).idleDecodes
        outlet).sendReply 0x18 .ok []))) ∧
  (∀ (s x : State) (inlet outlet : TrunkNo) (p : Profile), inlet ≠ outlet → p = s.profiles.get (s.trunk inlet).profile →
    (s.trunk inlet).link = some { peer := outlet, part := .inlet } →
    (s.trunk outlet).link = some { peer := inlet, part := .outlet } → (s.trunk inlet).state = .inSelecting →
    (∀ e ∈ s.callQueue, e.trunk ≠ outlet) ∨ ((s.trunk inlet).unit = none ∧ (s.trunk outlet).unit = none) →
    (s.trunk inlet).unit = none ∨ (∀ e ∈ s.callQueue, e.trunk ≠ inlet) →
    x = (s.quitsWork inlet id).inletLeaves inlet outlet →
    (∀ y : State, y = (x.mapTrunk inlet fun r => { r with
        state := .inGuard, sentCode := p.codes.bGuard
        timer := some { kind := .guard, left := p.guardTimer } }).submit (some inlet)
          (.clearForward (s.trunk inlet).callRef) →
      (p.method ≠ .decadic → (s.trunk inlet).lcr.accepted = some p.codes.fClear → p.codes.fSeize ≠ p.codes.fClear →
        s.decodeLine inlet = y) ∧
      (s.hwi.alignment ≠ .hold → (s.trunk inlet).clearRecognition = some 0 →
        exec (.clearRecognitionExpiry inlet) s = .next y)) ∧
    ((s.trunk inlet).role ≠ .unequipped → exec (.resetTrunk [byte inlet.val]) s =
      .next (((x.callEnds inlet .reset).idleDecodes inlet).sendReply 0x18 .ok [])) ∧
    (∀ c, s.hwi.alignment ≠ .hold → (s.trunk inlet).decadic = some (.receiving c) → c.phase = .between →
      c.wait = some { kind := .firstDigit, left := 0 } →
      exec (.decadicDigitWaitExpiry inlet) s = .next ((s.endsIn inlet (.reject .digitTimeout)).inletLeaves inlet outlet)) ∧
    ∀ (code : Byte) (cause : Cause) (l : LinkRecord), (code, cause) ∈ [((1 : Byte), Cause.congestion), (2, .unobtainable)] →
      (s.trunk inlet).linkRecord = some l → l.inletComplete = false → (s.trunk inlet).role ≠ .unequipped →
      (s.trunk inlet).tone = none → exec (.acceptDigits [byte inlet.val, code]) s =
        .next (((s.endsIn inlet (.reject cause)).inletLeaves inlet outlet).sendReply 0x12 .ok [])) ∧
  ∀ (s : State) (inlet outlet : TrunkNo) (l : LinkRecord) (d : Digit) (p q : Profile) (stored lost : State), inlet ≠ outlet →
    p = s.profiles.get (s.trunk inlet).profile → q = s.profiles.get (s.trunk outlet).profile →
    (s.trunk inlet).link = some { peer := outlet, part := .inlet } → (s.trunk inlet).linkRecord = some l →
    (s.trunk outlet).link = some { peer := inlet, part := .outlet } → (s.trunk inlet).state = .inSelecting →
    (s.trunk inlet).received.digits.length < 24 → l.delete ≤ (s.trunk inlet).received.digits.length →
    stored = s.mapTrunk inlet (fun r => { r with
      received := { r.received with digits := r.received.digits ++ [d] }
      record := r.record.map fun k => { k with digits := k.digits ++ [d] } }) →
    lost = stored.linkEnds inlet outlet .overflow (some .congestion) →
    (∀ (c : DecadicReceiver) (ended : State → State), s.hwi.alignment ≠ .hold → c.phase = .counting → c.digitEnd = some 0 →
      (s.trunk inlet).decadic = some (.receiving c) → c.pulses = (if d.val = 0 then 10 else d.val) →
      (∀ y : State, ended y = y.mapTrunk inlet fun r => { r with
        decadic := some (.receiving { c with phase := .between, pulses := 0, digitEnd := none }) }) →
      (24 ≤ (s.trunk outlet).send.digits.length → (s.trunk outlet).unit = none ∨ (∀ e ∈ s.callQueue, e.trunk ≠ outlet) →
        exec (.digitEndTimerExpiry inlet) s = .next ((((ended lost).endsIn inlet (.reject .congestion)).clearsOut outlet
          (some ((s.trunk outlet).cause.getD .overflow))).clearingDecodes outlet)) ∧
      (∀ y : State → State, (s.trunk outlet).send.digits.length < 24 → p.mode = .host →
        (s.trunk outlet).send.pos = (s.trunk outlet).send.digits.length + 1 →
        (∀ z : State, y z = (z.mapTrunk inlet fun r => { r with
          decadic := some (.receiving { c with
            phase := .between, pulses := 0, digitEnd := none
            wait := some { kind := .interDigit, left := 1000 * p.interDigitWait } }) }).submit (some inlet)
              (.digitProgress (s.trunk inlet).received.category (s.trunk inlet).received.endReceived
                ((s.trunk inlet).received.digits ++ [d]))) →
        ∀ z : State, z = (stored.mapTrunk inlet fun r => { r with
            linkRecord := some { l with relayed := l.relayed + 1 } }).mapTrunk outlet (fun r => { r with
              send := { r.send with digits := r.send.digits ++ [d] } }) →
        (∀ k, (s.trunk outlet).decadic = some (.sending k) → k.phase = .waiting →
          exec (.digitEndTimerExpiry inlet) s = .next (y (z.mapTrunk outlet fun r => { r with
            sentCode := q.codes.fClear
            decadic := some (.sending { k with
              phase := .breaking, breaks := if d.val = 0 then 10 else d.val, timer := some q.sendBreak }) }))) ∧
        (∀ k h, (s.trunk outlet).decadic = none → (s.trunk outlet).tone = some (.sender k) → k.phase = .waiting →
          (s.trunk outlet).unit = some h →
          exec (.digitEndTimerExpiry inlet) s = .next (y (z.sendsNext outlet h.unit k))))) ∧
    ∀ (c : ToneReceiver) (h : HeldUnit) (f : ForwardSignal), (s.trunk inlet).tone = some (.receiver c) →
      (s.trunk inlet).unit = some h → f.meaning = .digit d → c.phase = .listening → c.pending = none →
      c.complete = false → 24 ≤ (s.trunk outlet).send.digits.length →
      (s.trunk outlet).unit = none ∨ (∀ e ∈ s.callQueue, e.trunk ≠ outlet) →
      s.toneEvent inlet (.recognised (.forward f)) = ((lost.respondsLast inlet h.unit c (.reject .congestion)).clearsOut
        outlet (some ((s.trunk outlet).cause.getD .overflow))).clearingDecodes outlet

/-- B-ANSWER in OUT-WAIT-ANSWER enters OUT-ANSWERED, drops the timer, stamps and counts the answer in record and group
and reports ANSWER; in OUT-SELECTING it also ends the register work. B-CLEARBACK in OUT-ANSWERED enters OUT-CLEARBACK
with the clear-back timer unless its limit is 0 and reports CLEAR-BACK; in OUT-SELECTING and OUT-WAIT-ANSWER it ends
the register work, rejects the call with CONGESTION, reports REGISTER-END and counts the failure. B-ANSWER in
OUT-CLEARBACK re-enters OUT-ANSWERED, counts the answer and reports RE-ANSWER. F-SEIZE stays sent and nothing else
changes. (R40, R46, R47, R48, R49, R52, R53, R171, R176.) The endings in OUT-SELECTING and the clear-back before
answer are stated for a trunk in no relay link that waits for no unit. -/
def Obligations.AnswersAndClearBacksOfAnOutgoingCall : Prop :=
  ∀ (s : State) (t : TrunkNo) (p : Profile), p = s.profiles.get (s.trunk t).profile → p.codes.valid = true →
    ((s.trunk t).state = .outWaitAnswer → (s.trunk t).lcr.accepted = some p.codes.bAnswer →
      s.decodeLine t = ((s.mapTrunk t fun r =>
        { r with
          state := .outAnswered, sentCode := p.codes.fSeize, timer := none
          record := r.record.map fun k => { k with
            answerTime := some (k.answerTime.getD s.tmb.counter), answerCount := min 255 (k.answerCount + 1) } }).countFor t
        fun c => { c with outAnswered := min 4294967295 (c.outAnswered + 1) }).submit (some t)
          (.answer (s.trunk t).callRef)) ∧
    ((s.trunk t).state = .outAnswered → (s.trunk t).lcr.accepted = some p.codes.bClearback →
      s.decodeLine t = (s.mapTrunk t fun r =>
        { r with
          state := .outClearback, sentCode := p.codes.fSeize
          timer := if p.clearBackTimer = 0 then r.timer
            else some { kind := .clearBack, left := 1000 * p.clearBackTimer } }).submit (some t)
          (.clearBack (s.trunk t).callRef)) ∧
    ((s.trunk t).state = .outClearback → (s.trunk t).lcr.accepted = some p.codes.bAnswer →
      s.decodeLine t = (s.mapTrunk t fun r =>
        { r with
          state := .outAnswered, sentCode := p.codes.fSeize, timer := none
          record := r.record.map fun k => { k with answerCount := min 255 (k.answerCount + 1) } }).submit (some t)
          (.reAnswer (s.trunk t).callRef)) ∧
    ((s.trunk t).state = .outSelecting → (s.trunk t).lcr.accepted = some p.codes.bAnswer → (s.trunk t).link = none →
      (∀ e ∈ s.callQueue, e.trunk ≠ t) →
      s.decodeLine t = ((s.endsWork t fun r =>
        { r with
          state := .outAnswered, sentCode := p.codes.fSeize, timer := none
          record := r.record.map fun k => { k with
            answerTime := some (k.answerTime.getD s.tmb.counter), answerCount := min 255 (k.answerCount + 1) } }).countFor t
        fun c => { c with outAnswered := min 4294967295 (c.outAnswered + 1) }).submit (some t)
          (.answer (s.trunk t).callRef)) ∧
    ((s.trunk t).state = .outSelecting ∨ (s.trunk t).state = .outWaitAnswer → p.codes.bClearback ≠ p.codes.bAck →
      (s.trunk t).lcr.accepted = some p.codes.bClearback → (s.trunk t).link = none → (∀ e ∈ s.callQueue, e.trunk ≠ t) →
      s.decodeLine t = ((s.endsWork t fun r =>
        { r with
          state := .outRejected, sentCode := p.codes.fSeize, timer := none
          cause := some (r.cause.getD .congestion) }).submit (some t)
            (.registerEnd (s.trunk t).callRef .congestion (some ((s.trunk t).cause.getD .congestion)))).countFor t
        fun c => { c with failures := min 4294967295 (c.failures + 1) })

/-- F-SEIZE decoded in OUT-SEIZING on a BOTH-WAY trunk changes nothing under PRIORITY; under YIELD it reports GLARE,
drops the ack timer and the record, empties the send store and takes the far seizure as in IDLE. (R37, R63, R64.) The
yielding is stated for a trunk in no relay link. -/
def Obligations.DualSeizureFollowsTheGlareRole : Prop :=
  ∀ (s : State) (t : TrunkNo) (p : Profile), p = s.profiles.get (s.trunk t).profile → p.codes.validBothWay = true →
    (s.trunk t).role = .bothWay → (s.trunk t).state = .outSeizing → (s.trunk t).lcr.accepted = some p.codes.fSeize →
    ((s.trunk t).glare = .priority → s.decodeLine t = s) ∧
    ((s.trunk t).glare = .yield → (s.trunk t).link = none →
      s.decodeLine t = ((s.submit (some t) (.glare (s.trunk t).callRef)).mapTrunk t fun r =>
        { r with timer := none, record := none, send := { digits := [], endFlag := false, pos := 1 } }).incomingSeizure t)

/-- The signals listened for are those of the table of R37, row by row in its order. The first of them whose send code
equals the accepted code is decoded, and one with action "none" changes nothing but the remote-block flag;
"remote-block flag" sets a clear flag with a REMOTE-BLOCK report; "remote blocking" also enters REMOTE-BLOCKED;
"remote unblocking" clears the flag with REMOTE-UNBLOCK and enters IDLE, or LOCAL-BLOCKED; the idle signal frees a
trunk in FAILED with cause HOLD-LIMIT alone; "incoming seizure" takes the seizure; "release complete" ends the call.
B-IDLE, and F-IDLE on a BOTH-WAY trunk, clear a set flag first. A code that equals the send code of no signal listened
for only makes a LINE-ANOMALY report. An entry to IDLE decodes the accepted code at once. (R35, R36, R37, R38, R55,
R57, R65, R70.) That the flag is cleared before the action of R37 is taken is log entry 21 (DEDUCED); the pairs of
role and state that no run reaches, over which the last clauses also run, are log entry 22 (DEDUCED). -/
def Obligations.BlockingAndUnlistedCodes : Prop :=
  (∀ c : SendCodes, [LineSignal.fIdle, .fSeize, .fClear, .bIdle, .bAck, .bAnswer, .bClearback, .bBlock, .bGuard].map c.of =
    [c.fIdle, c.fSeize, c.fClear, c.bIdle, c.bAck, c.bAnswer, c.bClearback, c.bBlock, c.bGuard]) ∧
  (∀ x ∈ ([([.outgoing], [.idle], [(.bBlock, .remoteBlocking), (.bIdle, .nothing)]),
      ([.incoming], [.idle], [(.fSeize, .incomingSeizure), (.fIdle, .nothing), (.fClear, .nothing)]),
      ([.bothWay], [.idle],
        [(.fSeize, .incomingSeizure), (.bBlock, .remoteBlocking), (.fIdle, .nothing), (.fClear, .nothing)]),
      ([.outgoing], [.localBlocked, .failed], [(.bBlock, .remoteFlag), (.bIdle, .idleSignal)]),
      ([.incoming], [.localBlocked, .failed], [(.fIdle, .idleSignal), (.fClear, .nothing)]),
      ([.bothWay], [.localBlocked, .failed], [(.bBlock, .remoteFlag), (.fIdle, .idleSignal), (.fClear, .nothing)]),
      ([.outgoing, .bothWay], [.remoteBlocked], [(.bBlock, .nothing), (.bIdle, .remoteUnblocking)]),
      ([.outgoing], [.outSeizing], [(.bAck, .acknowledgement), (.bIdle, .nothing), (.bBlock, .remoteFlag)]),
      ([.bothWay], [.outSeizing],
        [(.bAck, .acknowledgement), (.fSeize, .dualSeizure), (.bIdle, .nothing), (.bBlock, .remoteFlag)]),
      ([.outgoing, .bothWay], [.outSelecting],
        [(.bAck, .nothing), (.bAnswer, .earlyAnswer), (.bClearback, .clearBackBeforeAnswer)]),
      ([.outgoing, .bothWay], [.outWaitAnswer],
        [(.bAck, .nothing), (.bAnswer, .answer), (.bClearback, .clearBackBeforeAnswer)]),
      ([.outgoing, .bothWay], [.outAnswered], [(.bAnswer, .nothing), (.bClearback, .clearBack)]),
      ([.outgoing, .bothWay], [.outClearback], [(.bClearback, .nothing), (.bAnswer, .reAnswer)]),
      ([.outgoing, .bothWay], [.outRejected], [(.bIdle, .nothing), (.bAck, .nothing), (.bAnswer, .nothing),
        (.bClearback, .nothing), (.bBlock, .nothing), (.bGuard, .nothing)]),
      ([.outgoing, .bothWay], [.outClearing], [(.bGuard, .nothing), (.bIdle, .releaseComplete), (.bBlock, .releaseComplete),
        (.bAck, .nothing), (.bAnswer, .nothing), (.bClearback, .nothing)]),
      ([.incoming, .bothWay], [.inSelecting, .inWaitAnswer, .inAnswered, .inClearback, .inRejected],
        [(.fSeize, .nothing), (.fClear, .clearForward)]),
      ([.incoming, .bothWay], [.inGuard], [(.fClear, .nothing), (.fIdle, .nothing)])] :
        List (List Role × List TrunkState × List (LineSignal × LineAction))),
    ∀ role ∈ x.1, ∀ st ∈ x.2.1, listened role st = x.2.2) ∧
  ∀ (s : State) (t : TrunkNo) (p : Profile) (code : LineCode), p = s.profiles.get (s.trunk t).profile →
    (s.trunk t).lcr.accepted = some code →
    (p.codes.valid = true → (s.trunk t).role = .outgoing → (s.trunk t).state = .idle → code = p.codes.bBlock →
      (s.trunk t).remoteBlock = false →
      s.decodeLine t = (s.mapTrunk t fun r =>
        { r with remoteBlock := true, state := .remoteBlocked, sentCode := p.codes.fIdle }).submit (some t) .remoteBlock) ∧
    (p.codes.valid = true → (s.trunk t).role = .outgoing → (s.trunk t).state = .remoteBlocked → code = p.codes.bIdle →
      (s.trunk t).remoteBlock = true → (s.trunk t).localBlock = false →
      s.decodeLine t = (s.mapTrunk t fun r =>
        { r with remoteBlock := false, state := .idle, sentCode := p.codes.fIdle }).submit (some t) .remoteUnblock) ∧
    ((∀ row ∈ listened (s.trunk t).role (s.trunk t).state, p.codes.of row.1 ≠ code) →
      s.decodeLine t = s.submit (some t) (.lineAnomaly code .unexpectedCode)) ∧
    ∀ (before after : List (LineSignal × LineAction)) (sig : LineSignal) (a : LineAction) (x : State),
      listened (s.trunk t).role (s.trunk t).state = before ++ (sig, a) :: after →
      (∀ row ∈ before, p.codes.of row.1 ≠ code) → p.codes.of sig = code →
      x = (if sig = .bIdle ∨ (sig = .fIdle ∧ (s.trunk t).role = .bothWay) then s.unblocks t else s) →
      (a = .nothing → p.method ≠ .decadic ∨ sig ≠ .fSeize → s.decodeLine t = x) ∧
      (a = .remoteFlag → s.decodeLine t = s.blocks t) ∧
      (a = .remoteBlocking → s.decodeLine t = (s.blocks t).mapTrunk t fun r => { r with
        state := .remoteBlocked, sentCode := p.codes.fIdle }) ∧
      (a = .remoteUnblocking → s.decodeLine t = (x.mapTrunk t fun r => { r with
        state := if r.localBlock then .localBlocked else .idle
        sentCode := sentCodeOf p.codes r.role (if r.localBlock then .localBlocked else .idle) }).idleDecodes t) ∧
      (a = .idleSignal → s.decodeLine t =
        if (s.trunk t).state = .failed ∧ (s.trunk t).cause = some .holdLimit then
          (x.mapTrunk t fun r => { r with
            cause := none, state := if r.localBlock then .localBlocked else .idle
            sentCode := sentCodeOf p.codes r.role (if r.localBlock then .localBlocked else .idle) }).idleDecodes t
        else x) ∧
      (a = .incomingSeizure → s.decodeLine t = s.incomingSeizure t) ∧
      (a = .releaseComplete → (s.trunk t).unit = none ∨ (∀ e ∈ s.callQueue, e.trunk ≠ t) →
        s.decodeLine t = (x.callEnds t ((s.trunk t).cause.getD .normal)).idleDecodes t)

/-- RELEASE in an OUT-* state before OUT-CLEARING, the answer-wait expiry and the clear-back timer expiry end the
register work, with any entry in the call wait queue, send F-CLEAR, start the release timer and enter OUT-CLEARING
without a report; RELEASE leaves the cause, and the expiries give NO-ANSWER and CLEARBACK-TIMEOUT where none is set.
The accepted code is then decoded, whatever it is: B-GUARD, B-ACK, B-ANSWER, B-CLEARBACK and UNKNOWN change nothing,
B-IDLE and B-BLOCK complete the release, and a code not listed makes one LINE-ANOMALY report. (R36, R37, R38, R40,
R50, R51, R53, R54, R55, R65, R92, R94.) Stated for a trunk in no relay link. That a remote-block flag is cleared
before the action taken at the same code is log entry 21 (DEDUCED). -/
def Obligations.ReleaseAndForcedClearsSendForwardClear : Prop :=
  ∀ (s : State) (t : TrunkNo) (y : Option Cause → State), (s.trunk t).link = none →
    (s.trunk t).unit = none ∨ (∀ e ∈ s.callQueue, e.trunk ≠ t) → (∀ cause, y cause = s.clearsOut t cause) →
    (∀ cause, s.clearedOut (y cause) t cause ∧ (y cause).clk = s.clk) ∧
    ((s.trunk t).role ≠ .unequipped → (s.trunk t).state ∈ [TrunkState.outSeizing, .outSelecting, .outWaitAnswer,
        .outAnswered, .outClearback, .outRejected] →
      exec (.release [byte t.val]) s = .next (((y (s.trunk t).cause).clearingDecodes t).sendReply 0x15 .ok [])) ∧
    (s.hwi.alignment ≠ .hold → (s.trunk t).state = .outWaitAnswer →
      (s.trunk t).timer = some { kind := .answerWait, left := 0 } →
      exec (.answerWaitExpiry t) s = .next ((y (some ((s.trunk t).cause.getD .noAnswer))).clearingDecodes t)) ∧
    (s.hwi.alignment ≠ .hold → (s.trunk t).state = .outClearback →
      (s.trunk t).timer = some { kind := .clearBack, left := 0 } →
      exec (.clearBackTimerExpiry t) s = .next ((y (some ((s.trunk t).cause.getD .clearbackTimeout))).clearingDecodes t))

/-- The guard timer's expiry, B-IDLE or B-BLOCK in OUT-CLEARING and RESET-TRUNK close the record with a RELEASED
report (cause NORMAL where none is set, RESET for RESET-TRUNK), empty stores, timer, reference and engines, clear the
cause and enter IDLE, or LOCAL-BLOCKED where the local-block flag is set; in IDLE the accepted code is decoded at
once: after the guard F-CLEAR and F-IDLE change nothing on an INCOMING trunk and a standing F-SEIZE is taken as a new
call, and after B-BLOCK the trunk passes on to REMOTE-BLOCKED. RESET-TRUNK on a trunk in no call only clears the
cause, re-enters the free state and decodes. The idle signal decoded in FAILED clears a standing remote-block flag
with REMOTE-UNBLOCK, and frees the trunk only where its cause is HOLD-LIMIT. (R37, R38, R41, R55, R57, R62, R65, R70,
R71, R174, R175.) Stated for a trunk in no relay link where the call may be in its register phase. That a remote-block
flag is cleared before the action taken at the same code is log entry 21 (DEDUCED). -/
def Obligations.GuardEndReleaseEndAndResetFreeTheTrunk : Prop :=
  ∀ (s : State) (t : TrunkNo) (p : Profile), p = s.profiles.get (s.trunk t).profile →
    (s.trunk t).unit = none ∨ (∀ e ∈ s.callQueue, e.trunk ≠ t) →
    (∀ cause, s.freedCall (s.callEnds t cause) t cause ∧ (s.callEnds t cause).clk = s.clk) ∧
    (s.hwi.alignment ≠ .hold → (s.trunk t).state = .inGuard → (s.trunk t).timer = some { kind := .guard, left := 0 } →
      ∃ u y, exec (.guardTimerExpiry t) s = .next u ∧ y = s.callEnds t ((s.trunk t).cause.getD .normal) ∧
        u = y.idleDecodes t ∧
        ((s.trunk t).localBlock = true ∨ (s.trunk t).lcr.accepted = none → u = y) ∧
        (∀ code, (s.trunk t).lcr.accepted = some code → code = p.codes.fClear ∨ code = p.codes.fIdle →
          code ≠ p.codes.fSeize → (s.trunk t).role = .incoming → u = y) ∧
        ((s.trunk t).lcr.accepted = some p.codes.fSeize → (s.trunk t).localBlock = false →
          (s.trunk t).role = .incoming ∨ (s.trunk t).role = .bothWay →
          u = y.incomingSeizure t ∧ u.sequence = s.sequence + 1 ∧ (u.trunk t).callRef = some (s.sequence + 1) ∧
            (u.trunk t).sentCode = p.codes.bAck ∧ u.reported (some t) (.seizedIn (some (s.sequence + 1))) ∧
            (u.trunk t).state = (if p.method = .noRegister then .inWaitAnswer else .inSelecting))) ∧
    (∀ code, (s.trunk t).state = .outClearing → (s.trunk t).lcr.accepted = some code →
      s.decodeLine t = s.clearingDecodes t ∧
      (code = p.codes.bIdle → code ≠ p.codes.bGuard → code ≠ p.codes.bBlock → (s.trunk t).role = .outgoing →
        (s.trunk t).remoteBlock = false → s.decodeLine t = s.callEnds t ((s.trunk t).cause.getD .normal)) ∧
      (code = p.codes.bBlock → code ≠ p.codes.bGuard → code ≠ p.codes.bIdle → ∀ y : State,
        y = s.callEnds t ((s.trunk t).cause.getD .normal) →
        (s.trunk t).role = .outgoing ∨ ((s.trunk t).role = .bothWay ∧ code ≠ p.codes.fSeize) →
        s.decodeLine t = (if (s.trunk t).localBlock then y
          else (y.blocks t).mapTrunk t fun r => { r with state := .remoteBlocked, sentCode := p.codes.fIdle }))) ∧
    ((s.trunk t).role ≠ .unequipped → (s.trunk t).state.inCall = true → (s.trunk t).link = none →
      exec (.resetTrunk [byte t.val]) s = .next (((s.callEnds t .reset).idleDecodes t).sendReply 0x18 .ok []) ∧
      ((s.trunk t).localBlock = true ∨ (s.trunk t).lcr.accepted = none →
        exec (.resetTrunk [byte t.val]) s = .next ((s.callEnds t .reset).sendReply 0x18 .ok []))) ∧
    ((s.trunk t).role ≠ .unequipped → (s.trunk t).state.inCall = false → ∀ y : State,
      y = s.mapTrunk t (fun r => { r with
        cause := none
        state := if r.localBlock then .localBlocked else .idle
        sentCode := sentCodeOf p.codes r.role (if r.localBlock then .localBlocked else .idle) }) →
      exec (.resetTrunk [byte t.val]) s = .next ((y.idleDecodes t).sendReply 0x18 .ok []) ∧
      ((s.trunk t).localBlock = true ∨ (s.trunk t).lcr.accepted = none →
        exec (.resetTrunk [byte t.val]) s = .next (y.sendReply 0x18 .ok []))) ∧
    (∀ code, (s.trunk t).state = .failed → (s.trunk t).role ≠ .unequipped → p.codes.valid = true →
      (s.trunk t).lcr.accepted = some code →
      code = (if (s.trunk t).role = .outgoing then p.codes.bIdle else p.codes.fIdle) →
      ((s.trunk t).role ≠ .incoming → code ≠ p.codes.bBlock) → ∀ x : State,
      x = (if (s.trunk t).remoteBlock = true ∧ (s.trunk t).role ≠ .incoming then
          (s.mapTrunk t fun r => { r with remoteBlock := false }).submit (some t) .remoteUnblock
        else s) →
      ((s.trunk t).cause = some .holdLimit → s.decodeLine t = x.mapTrunk t fun r => { r with
        cause := none, state := if r.localBlock then .localBlocked else .idle
        sentCode := sentCodeOf p.codes r.role (if r.localBlock then .localBlocked else .idle) }) ∧
      ((s.trunk t).cause ≠ some .holdLimit → s.decodeLine t = x))

/-- A send break's expiry sends F-SEIZE for the make and takes one break off; a make's expiry starts the next break
with F-CLEAR, or after the last break moves the send position, enters the digit in the record and starts the pause;
the pause's expiry starts the next digit with ten breaks for 0, or waits for a digit when the store is exhausted
without its end flag. (R74, R75, R172.) -/
def Obligations.DecadicSendingTakesPulsesAndPauses : Prop :=
  ∀ (s : State) (t : TrunkNo) (c : DecadicSender) (p : Profile), p = s.profiles.get (s.trunk t).profile →
    s.hwi.alignment ≠ .hold → (s.trunk t).decadic = some (.sending c) → c.timer = some 0 →
    (c.phase = .breaking → exec (.sendBreakExpiry t) s = .next (s.mapTrunk t fun r => { r with
      sentCode := p.codes.fSeize
      decadic := some (.sending { c with phase := .making, breaks := c.breaks - 1, timer := some p.sendMake }) })) ∧
    (c.phase = .making → 0 < c.breaks → exec (.sendMakeExpiry t) s = .next (s.mapTrunk t fun r => { r with
      sentCode := p.codes.fClear
      decadic := some (.sending { c with phase := .breaking, timer := some p.sendBreak }) })) ∧
    (∀ d, c.phase = .making → c.breaks = 0 → (s.trunk t).send.digits[(s.trunk t).send.pos - 1]? = some d →
      exec (.sendMakeExpiry t) s = .next (s.mapTrunk t fun r => { r with
        send := { r.send with pos := r.send.pos + 1 }
        record := r.record.map fun k => { k with digits := k.digits ++ [d] }
        decadic := some (.sending { c with phase := .pause, timer := some p.sendPause }) })) ∧
    (∀ d, c.phase = .pause → (s.trunk t).send.digits[(s.trunk t).send.pos - 1]? = some d →
      exec (.pauseTimerExpiry t) s = .next (s.mapTrunk t fun r => { r with
        sentCode := p.codes.fClear
        decadic := some (.sending { c with
          phase := .breaking, breaks := if d.val = 0 then 10 else d.val, timer := some p.sendBreak }) })) ∧
    (c.phase = .pause → (s.trunk t).send.digits[(s.trunk t).send.pos - 1]? = none → (s.trunk t).send.endFlag = false →
      exec (.pauseTimerExpiry t) s = .next (s.mapTrunk t fun r => { r with
        decadic := some (.sending { c with phase := .waiting, timer := some (1000 * p.senderDigitWait) }) }))

/-- In OUT-SELECTING the decadic pause's expiry with the store exhausted and its end flag set enters OUT-WAIT-ANSWER
and reports REGISTER-END COMPLETE; the sender digit waits reject with DIGIT-TIMEOUT and the interlock timer with
INTERLOCK-TIMEOUT: OUT-REJECTED, REGISTER-END, the failure counted, and a tone sender frees its unit. (R46, R51, R75,
R127, R129.) Stated for a trunk in no relay link. -/
def Obligations.OutgoingRegisterPhaseEnds : Prop :=
  ∀ (s : State) (t : TrunkNo) (p : Profile), p = s.profiles.get (s.trunk t).profile → s.hwi.alignment ≠ .hold →
    (s.trunk t).state = .outSelecting → (s.trunk t).link = none → (∀ e ∈ s.callQueue, e.trunk ≠ t) →
    (∀ c, (s.trunk t).decadic = some (.sending c) → c.phase = .pause → c.timer = some 0 →
      (s.trunk t).send.digits[(s.trunk t).send.pos - 1]? = none → (s.trunk t).send.endFlag = true →
      exec (.pauseTimerExpiry t) s = .next ((s.mapTrunk t fun r => { r with
        decadic := none, state := .outWaitAnswer, sentCode := p.codes.fSeize
        timer := if p.answerWait = 0 then r.timer
          else some { kind := .answerWait, left := 1000 * p.answerWait } }).submit (some t)
            (.registerEnd (s.trunk t).callRef .complete none))) ∧
    (∀ c, (s.trunk t).decadic = some (.sending c) → c.phase = .waiting → c.timer = some 0 →
      ∃ u, exec (.decadicSenderDigitWait t) s = .next u ∧ s.rejectedOut u t .digitTimeout ∧ u.units = s.units) ∧
    (∀ c, (s.trunk t).tone = some (.sender c) → c.timer = some { kind := .senderWait, left := 0 } →
      ∃ u, exec (.senderDigitWaitExpiry t) s = .next u ∧ s.rejectedOut u t .digitTimeout ∧
        (u.trunk t).tone = none ∧ (u.trunk t).unit = none) ∧
    (∀ c, (s.trunk t).tone = some (.sender c) → c.timer = some { kind := .interlock, left := 0 } →
      ∃ u, exec (.senderInterlockExpiry t) s = .next u ∧ s.rejectedOut u t .interlockTimeout ∧
        (u.trunk t).tone = none ∧ (u.trunk t).unit = none)

/-- The digit-end make: a count of 1 to 10 pulses stores the digit and enters it in the record; HOST reports
DIGIT-PROGRESS and starts the inter-digit wait; TABLE judges the number, takes the standing, shortens store and record
to the length of a FIXED entry, and completes, is refused, or starts the open-number or inter-digit wait; with 24
digits stored the number is rejected with CONGESTION; more than ten pulses report a DIGIT-ERROR anomaly and restore
the wait, which a digit already being rejected also does. Breaks and makes decoded in IN-SELECTING: the condition the
line already has changes nothing; a break begins a digit, ends the one before it, goes on with it or finds the make
too short; a make counts a pulse where the break lies within the receive window and rejects the digit where it does
not, or is a clear-forward after the clear recognition time. With the number complete, and in the clear watch, breaks
are only timed. (R78, R79, R80, R81, R82, R83, R84, R86, R132, R156, R157, R172.) Stated for a trunk in no relay link,
on the profile's F-SEIZE and F-CLEAR where these differ (R23). That a code which repeats the line condition changes
nothing in the clear watch, where R86 is silent, is log entry 18 (DEDUCED). -/
def Obligations.DecadicDigitEnds : Prop :=
  (∀ (s : State) (t : TrunkNo) (c : DecadicReceiver) (p : Profile), p = s.profiles.get (s.trunk t).profile →
    s.hwi.alignment ≠ .hold → (s.trunk t).decadic = some (.receiving c) → c.digitEnd = some 0 →
    (∀ d : Digit, c.phase = .counting → c.pulses = (if d.val = 0 then 10 else d.val) →
      (s.trunk t).received.digits.length < 24 → (s.trunk t).link = none → p.mode = .host →
      exec (.digitEndTimerExpiry t) s = .next ((s.mapTrunk t fun r => { r with
        received := { r.received with digits := r.received.digits ++ [d] }
        record := r.record.map fun k => { k with digits := k.digits ++ [d] }
        decadic := some (.receiving { c with
          phase := .between, pulses := 0, digitEnd := none
          wait := some { kind := .interDigit, left := 1000 * p.interDigitWait } }) }).submit (some t)
        (.digitProgress (s.trunk t).received.category (s.trunk t).received.endReceived
          ((s.trunk t).received.digits ++ [d])))) ∧
    (∀ (d : Digit) (ds : List Digit) (st : Standing) (len : Option Nat) (y : DecadicReceiver → State),
      c.phase = .counting → c.pulses = (if d.val = 0 then 10 else d.val) → (s.trunk t).link = none → p.mode = .table →
      ds = (s.trunk t).received.digits → ds.length < 24 → (s.trunk t).state = .inSelecting →
      analyse s.analysis.toList (s.trunk t).group p.defaultOutcome (ds ++ [d]) = (st, len) →
      (∀ k, y k = s.mapTrunk t fun r => { r with
        received := { r.received with digits := (ds ++ [d]).take (len.getD (ds.length + 1)) }
        record := r.record.map fun x => { x with
          digits := match len with
            | some n => (x.digits ++ [d]).take n
            | none => x.digits ++ [d] }
        standing := some st
        decadic := some (.receiving { k with phase := .between, pulses := 0, digitEnd := none }) }) →
      exec (.digitEndTimerExpiry t) s = .next (match st with
        | .complete => (y c).endsIn t .complete
        | .refused => (y c).endsIn t (.reject .unobtainable)
        | .openNumber => y { c with wait := some { kind := .openNumber, left := 1000 * p.openNumberWait } }
        | .undecided => y { c with wait := some { kind := .interDigit, left := 1000 * p.interDigitWait } })) ∧
    (c.phase = .counting → 1 ≤ c.pulses → c.pulses ≤ 10 → 24 ≤ (s.trunk t).received.digits.length →
      (s.trunk t).state = .inSelecting → (s.trunk t).link = none →
      ∃ u, exec (.digitEndTimerExpiry t) s = .next u ∧ s.rejectedIn u t .congestion) ∧
    (∀ w : DigitWait, w = (if (s.trunk t).received.digits = [] then
        { kind := .firstDigit, left := 1000 * p.firstDigitWait }
      else if p.mode = .table ∧ (s.trunk t).standing = some .openNumber then
        { kind := .openNumber, left := 1000 * p.openNumberWait }
      else { kind := .interDigit, left := 1000 * p.interDigitWait }) →
      (∀ code, c.phase = .counting → 10 < c.pulses → (s.trunk t).lcr.accepted = some code →
        exec (.digitEndTimerExpiry t) s = .next ((s.mapTrunk t fun r => { r with
          decadic := some (.receiving { c with phase := .between, pulses := 0, digitEnd := none, wait := some w }) }).submit
            (some t) (.lineAnomaly code .digitError))) ∧
      (c.phase = .rejecting → exec (.digitEndTimerExpiry t) s = .next (s.mapTrunk t fun r => { r with
        decadic := some (.receiving { c with phase := .between, pulses := 0, digitEnd := none, wait := some w }) })))) ∧
  (∀ (s : State) (t : TrunkNo) (c : DecadicReceiver) (p : Profile) (becomes : DecadicReceiver → State),
    p = s.profiles.get (s.trunk t).profile → p.method = .decadic → p.codes.fSeize ≠ p.codes.fClear →
    (s.trunk t).state = .inSelecting → (s.trunk t).decadic = some (.receiving c) → (s.trunk t).link = none →
    (∀ x, becomes x = s.mapTrunk t fun r => { r with decadic := some (.receiving x) }) →
    (∀ b, (s.trunk t).lcr.accepted = some p.codes.fClear →
      b = { c with line := .broken, since := 0, clearRec := some p.clearRecognition } →
      (c.line = .broken → s.decodeLine t = s) ∧
      (c.line = .made → c.complete = true → s.decodeLine t = becomes b) ∧
      (c.line = .made → c.complete = false → c.phase = .between ∨ (c.phase = .rejecting ∧ p.digitEnd ≤ c.since) →
        s.decodeLine t = becomes { b with phase := .counting, pulses := 0, wait := none, digitEnd := none }) ∧
      (c.line = .made → c.complete = false → c.since < p.digitEnd →
        c.phase = .rejecting ∨ (c.phase = .counting ∧ p.makeMin ≤ c.since) →
        s.decodeLine t = becomes { b with digitEnd := none }) ∧
      (c.line = .made → c.complete = false → c.phase = .counting → c.since < p.makeMin →
        s.decodeLine t = (becomes { b with phase := .rejecting, pulses := 0, digitEnd := none }).submit (some t)
          (.lineAnomaly p.codes.fClear .digitError)) ∧
      (∀ d : Digit, c.line = .made → c.complete = false → c.phase = .counting → p.makeMin ≤ c.since →
        p.digitEnd ≤ c.since → c.pulses = (if d.val = 0 then 10 else d.val) →
        (s.trunk t).received.digits.length < 24 → p.mode = .host →
        s.decodeLine t = ((becomes { b with phase := .counting, pulses := 0, wait := none, digitEnd := none }).mapTrunk t
          fun r => { r with
            received := { r.received with digits := r.received.digits ++ [d] }
            record := r.record.map fun k => { k with digits := k.digits ++ [d] } }).submit (some t)
              (.digitProgress (s.trunk t).received.category (s.trunk t).received.endReceived
                ((s.trunk t).received.digits ++ [d])))) ∧
    (∀ m, (s.trunk t).lcr.accepted = some p.codes.fSeize →
      m = { c with line := .made, since := 0, clearRec := none, digitEnd := some p.digitEnd } →
      (c.line = .made → s.decodeLine t = s) ∧
      (c.line = .broken → c.complete = false → c.since < p.clearRecognition → c.phase = .counting →
        p.breakMin ≤ c.since → c.since ≤ p.breakMax →
        s.decodeLine t = becomes { m with pulses := min 255 (c.pulses + 1) }) ∧
      (c.line = .broken → c.complete = false → c.since < p.clearRecognition → c.phase = .counting →
        c.since < p.breakMin ∨ p.breakMax < c.since →
        s.decodeLine t = (becomes { m with phase := .rejecting, pulses := 0 }).submit (some t)
          (.lineAnomaly p.codes.fSeize .digitError)) ∧
      (c.line = .broken → c.complete = false → c.since < p.clearRecognition → c.phase = .rejecting →
        s.decodeLine t = becomes m) ∧
      ((∀ e ∈ s.callQueue, e.trunk ≠ t) → c.line = .broken →
        (c.complete = false ∧ p.clearRecognition ≤ c.since) ∨ (c.complete = true ∧ c.clearRec = some 0) →
        s.clearedForward (s.decodeLine t) t) ∧
      (c.line = .broken → c.complete = true → c.clearRec ≠ some 0 →
        s.decodeLine t = becomes { c with line := .made, since := 0, clearRec := none }))) ∧
  ∀ (s : State) (t : TrunkNo) (w : ClearWatch) (p : Profile) (becomes : ClearWatch → State),
    p = s.profiles.get (s.trunk t).profile → p.method = .decadic → p.codes.fSeize ≠ p.codes.fClear →
    (s.trunk t).state ∈ [TrunkState.inWaitAnswer, .inAnswered, .inClearback, .inRejected] →
    (s.trunk t).decadic = some (.watching w) →
    (∀ x, becomes x = s.mapTrunk t fun r => { r with decadic := some (.watching x) }) →
    ((s.trunk t).lcr.accepted = some p.codes.fClear → s.decodeLine t =
      if w.line = .broken then s else becomes { line := .broken, clearRec := some p.clearRecognition }) ∧
    ((s.trunk t).lcr.accepted = some p.codes.fSeize →
      (w.line = .made → s.decodeLine t = s) ∧
      (w.line = .broken → w.clearRec ≠ some 0 → s.decodeLine t = becomes { line := .made, clearRec := none }) ∧
      (w.line = .broken → w.clearRec = some 0 → (s.trunk t).link = none → (∀ e ∈ s.callQueue, e.trunk ≠ t) →
        s.clearedForward (s.decodeLine t) t))

/-- In IN-SELECTING the open-number wait, and the inter-digit wait of a HOST profile with a digit stored, complete the
number: IN-WAIT-ANSWER with DIGITS-COMPLETE; every other digit wait rejects it: IN-REJECTED with REGISTER-END, cause
DIGIT-TIMEOUT and the failure counted; the receiving context becomes the clear watch. (R58, R84, R85, R86.) Stated for
a trunk in no relay link. -/
def Obligations.DecadicDigitWaitEndsTheNumber : Prop :=
  ∀ (s : State) (t : TrunkNo) (c : DecadicReceiver) (k : DigitWaitKind) (p : Profile),
    p = s.profiles.get (s.trunk t).profile → s.hwi.alignment ≠ .hold → (s.trunk t).state = .inSelecting →
    (s.trunk t).link = none → (s.trunk t).decadic = some (.receiving c) → c.phase = .between →
    c.wait = some { kind := k, left := 0 } →
    ∃ u, exec (.decadicDigitWaitExpiry t) s = .next u ∧
      if k = .openNumber ∨ (k = .interDigit ∧ p.mode = .host ∧ (s.trunk t).received.digits ≠ []) then s.completedIn u t
      else s.rejectedIn u t .digitTimeout

/-- The call wait expiry takes the trunk's entry out of the queue and rejects the register phase with NO-UNIT; the
test wait expiry takes the request out and reports TEST-RESULT with status NO-UNIT; units are unchanged. (R46, R58,
R93, R96.) Stated for a trunk in no relay link. -/
def Obligations.WaitQueueExpiriesGiveNoUnit : Prop :=
  ∀ (s : State) (t : TrunkNo), s.hwi.alignment ≠ .hold → (s.trunk t).link = none →
    (∀ e ∈ s.callQueue, e.trunk = t → e.left = 0 → (∀ x ∈ s.callQueue, x.trunk = t → x = e) →
      (e.role = .sender → (s.trunk t).state = .outSelecting →
        ∃ u, exec (.callWaitExpiry t) s = .next u ∧ u.callQueue = s.callQueue.filter (fun x => x.trunk != t) ∧
          s.rejectedOut u t .noUnit ∧ u.units = s.units) ∧
      (e.role = .receiver → (s.trunk t).state = .inSelecting →
        ∃ u, exec (.callWaitExpiry t) s = .next u ∧ u.callQueue = s.callQueue.filter (fun x => x.trunk != t) ∧
          s.rejectedIn u t .noUnit ∧ u.units = s.units)) ∧
    ((∃ r ∈ s.testQueue, r.trunk = t ∧ r.left = 0) → exec (.testWaitExpiry t) s =
      .next (({ s with testQueue := s.testQueue.filter fun r => r.trunk != t } : State).submit (some t)
        (.testResult .noUnit 0 none)))

/-- A tone block event without an ended block changes nothing. The block powers are those of the formula of R108. With
an ended block the event discards it in HOLD; for a measuring unit it adds energy and powers to the sums and counts
the block, and at the number asked it reports TEST-RESULT DONE with the rms amplitude, the lowest index of greatest
power sum and the amplitude estimate, frees the unit and hands it on: to the head of the call wait queue, else to the
head of the test wait queue. (R10, R92, R97, R98, R108, R118, R119.) The ended block is held until its event (log
entry 15). -/
def Obligations.ToneBlocksOfAMeasurementAndInHold : Prop :=
  ∀ (s : State) (n : UnitNo),
    ((s.unit n).ended = none → exec (.toneBlockEvent n) s = .next s) ∧
    ∀ b, (s.unit n).ended = some b →
      (∀ (k : Fin 10) (c : Int), c = coefficients.get k → ((b.powers.get k : Nat) : Int) =
        max 0 ((b.bank.get k).s1 * (b.bank.get k).s1 + (b.bank.get k).s2 * (b.bank.get k).s2 -
          (c * (b.bank.get k).s1 * (b.bank.get k).s2 + 8192).fdiv 16384)) ∧
      (s.hwi.alignment = .hold ∨ (s.unit n).status = .free →
        exec (.toneBlockEvent n) s = .next (s.mapUnit n fun u => { u with ended := none })) ∧
      (∀ t asked done, s.hwi.alignment ≠ .hold → (s.unit n).status = .measuring t asked done → done + 1 < asked →
        exec (.toneBlockEvent n) s = .next (s.mapUnit n fun u => { u with
          ended := none, status := .measuring t asked (done + 1), energySum := u.energySum + b.energy
          powerSums := Vector.zipWith (· + ·) u.powerSums b.powers })) ∧
      ∀ (t : TrunkNo) (asked done m e rms root : Nat) (sums : Vector Nat 10) (k : Fin 10), s.hwi.alignment ≠ .hold →
        (s.unit n).status = .measuring t asked done → asked ≤ done + 1 → m = done + 1 →
        e = (s.unit n).energySum + b.energy → sums = Vector.zipWith (· + ·) (s.unit n).powerSums b.powers →
        rms * rms * (160 * m) ≤ e → e < (rms + 1) * (rms + 1) * (160 * m) →
        (∀ j, sums.get j ≤ sums.get k) → (∀ j < k, sums.get j < sums.get k) →
        root * root ≤ sums.get k / m → sums.get k / m < (root + 1) * (root + 1) →
        exec (.toneBlockEvent n) s = .next (((s.submit (some t) (.testResult .done m
          (some { rms := rms, strongest := k.val, estimate := root / 80 }))).mapUnit n fun _ => { status := .free }).handsOn n)

/-- A receiver's block decides a forward signal, and a sender's a backward one, exactly where its pair of frequency
numbers passes the minimum, twist, third tone and purity tests. At a decided block of a signalling unit, with decision
d: with no signal recognised, a d equal to the previous decision is recognised and handed to the engine, and any other
d becomes the previous decision; with a signal recognised, a block that decides it sets the count to 0, the first that
does not makes it 1, and the second clears the record and hands the engine the cessation. (R108, R110, R111, R112,
R113, R114.) The cases without a recognised signal are R113's and the others R114's. That the ended block is kept
until its event and then gone (ended := none) is the model's choice (log entry 15). -/
def Obligations.RecognitionAndCessation : Prop :=
  ∀ (s : State) (n : UnitNo) (b : EndedBlock) (t : TrunkNo) (role : UnitRole) (d : Option ToneSignal),
    (s.unit n).ended = some b → (s.unit n).status = .signalling t role → s.hwi.alignment ≠ .hold →
    d = decideBlock role (s.profiles.get (s.trunk t).profile).minAmplitude b →
    (role = .receiver → (∀ x, d ≠ some (.backward x)) ∧
      ∀ x ∈ [(ForwardSignal.ft1, 0, 1), (.ft2, 0, 2), (.ft3, 0, 3), (.ft4, 0, 4), (.ft5, 0, 5), (.ft6, 1, 2), (.ft7, 1, 3),
        (.ft8, 1, 4), (.ft9, 1, 5), (.ft10, 2, 3), (.ft11, 2, 4), (.ft12, 2, 5), (.ft13, 3, 4), (.ft14, 3, 5), (.ft15, 4, 5)],
        d = some (.forward x.1) ↔ decidesPair (s.profiles.get (s.trunk t).profile).minAmplitude b.energy
          (b.powers.toList.take 6) x.2.1 x.2.2) ∧
    (role = .sender → (∀ x, d ≠ some (.forward x)) ∧
      ∀ x ∈ [(BackwardSignal.bt1, 0, 1), (.bt2, 0, 2), (.bt3, 0, 3), (.bt4, 1, 2), (.bt5, 1, 3), (.bt6, 2, 3)],
        d = some (.backward x.1) ↔ decidesPair (s.profiles.get (s.trunk t).profile).minAmplitude b.energy
          (b.powers.toList.drop 6) x.2.1 x.2.2) ∧
    (∀ x, (s.unit n).recognition.recognised = none → d = some x → (s.unit n).recognition.previous = .decided x →
      exec (.toneBlockEvent n) s = .next ((s.mapUnit n fun u => { u with
        ended := none, recognition := { u.recognition with recognised := some x, count := 0 } }).toneEvent t
          (.recognised x))) ∧
    (∀ x, (s.unit n).recognition.recognised = none → d = some x → (s.unit n).recognition.previous ≠ .decided x →
      exec (.toneBlockEvent n) s = .next (s.mapUnit n fun u => { u with
        ended := none, recognition := { u.recognition with previous := .decided x } })) ∧
    ((s.unit n).recognition.recognised = none → d = none →
      exec (.toneBlockEvent n) s = .next (s.mapUnit n fun u => { u with
        ended := none, recognition := { u.recognition with previous := .decidedNone } })) ∧
    (∀ y, (s.unit n).recognition.recognised = some y → d = some y →
      exec (.toneBlockEvent n) s = .next (s.mapUnit n fun u => { u with
        ended := none, recognition := { u.recognition with count := 0 } })) ∧
    (∀ y, (s.unit n).recognition.recognised = some y → d ≠ some y → (s.unit n).recognition.count = 0 →
      exec (.toneBlockEvent n) s = .next (s.mapUnit n fun u => { u with
        ended := none, recognition := { u.recognition with count := 1 } })) ∧
    (∀ y, (s.unit n).recognition.recognised = some y → d ≠ some y → 1 ≤ (s.unit n).recognition.count →
      exec (.toneBlockEvent n) s = .next ((s.mapUnit n fun u => { u with
        ended := none, recognition := { recognised := none, previous := .cleared, count := 0 } }).toneEvent t
          (.ceased y)))

/-- A backward signal recognised while a tone sender is sending or waiting stops its signal, is noted and starts the
interlock timer. When BT1 or BT3 ceases the answered digit is counted as sent and entered in the record; after BT1 the
sender sends the next digit, FT11 for an ended number, or waits; after BT3 it sends the category; when BT2 ceases the
last digit is sent again. BT2 with no digit sent ends the phase with PROTOCOL, BT4 with COMPLETE, BT5 with CONGESTION
and BT6 with UNOBTAINABLE, and the unit is freed and handed on. The signals of the ten digits and the three categories
are those of R120. (R120, R122, R123, R124, R125, R126, R127, R128, R172.) The endings are stated for a trunk in
OUT-SELECTING in no relay link. That a digit answered again is not entered again is log entry 16. -/
def Obligations.ToneSenderIsAnsweredAndSendsTheNextItem : Prop :=
  (List.finRange 10).map digitSignal = [.ft10, .ft1, .ft2, .ft3, .ft4, .ft5, .ft6, .ft7, .ft8, .ft9] ∧
  ∀ (s : State) (t : TrunkNo) (c : ToneSender) (h : HeldUnit) (p : Profile), p = s.profiles.get (s.trunk t).profile →
    (s.trunk t).tone = some (.sender c) → (s.trunk t).unit = some h →
    (∀ b, c.phase = .sending ∨ c.phase = .waiting →
      s.toneEvent t (.recognised (.backward b)) =
        (s.mapUnit h.unit fun u => { u with generation := none }).mapTrunk t fun r => { r with
          tone := some (.sender { c with
            phase := .answered, noted := some b, timer := some { kind := .interlock, left := 1000 * p.interlock } }) }) ∧
    (∀ x pos d, c.phase = .answered → c.noted = some .bt1 → c.item = some (.digit pos) → (s.trunk t).send.pos = pos →
      1 ≤ pos → (s.trunk t).send.digits[pos - 1]? = some d → (s.trunk t).send.digits.length = pos →
      (s.trunk t).send.endFlag = true →
      s.toneEvent t (.ceased x) =
        (s.mapUnit h.unit fun u => { u with
          generation := some { sig := .forward .ft11, amplitude := p.sendAmplitude, n := 0 } }).mapTrunk t fun r => { r with
            send := { r.send with pos := pos + 1 }
            record := r.record.map fun k => { k with digits := k.digits ++ [d] }
            tone := some (.sender
              { phase := .sending, item := some .endOfNumber, lastSent := c.lastSent, noted := none
                timer := some { kind := .interlock, left := 1000 * p.interlock } }) }) ∧
    (∀ x pos, c.phase = .answered → c.noted = some .bt2 → c.lastSent = some pos →
      s.toneEvent t (.ceased x) =
        (s.mapUnit h.unit fun u => { u with
          generation := some
            { sig := .forward (digitSignal ((s.trunk t).send.digits.getD (pos - 1) 0)), amplitude := p.sendAmplitude
              n := 0 } }).mapTrunk t fun r => { r with
            tone := some (.sender
              { phase := .sending, item := some (.digit pos), lastSent := some pos, noted := none
                timer := some { kind := .interlock, left := 1000 * p.interlock } }) }) ∧
    (∀ (x : ToneSignal) (d : Digit) (pos : Nat) (y : State), c.phase = .answered → c.item = some (.digit pos) →
      (s.trunk t).send.pos = pos → 1 ≤ pos → (s.trunk t).send.digits[pos - 1]? = some d →
      y = (s.mapTrunk t fun r => { r with
        send := { r.send with pos := pos + 1 }
        record := r.record.map fun k => { k with digits := k.digits ++ [d] } }) →
      (c.noted = some .bt1 → s.toneEvent t (.ceased x) = y.sendsNext t h.unit c) ∧
      (∀ r k, c.noted = some .bt3 → (s.trunk t).record = some r → r.category = some k →
        s.toneEvent t (.ceased x) = y.sends t h.unit .category
          (match k with
            | .ordinary => .ft12
            | .priority => .ft13
            | .test => .ft14) c.lastSent)) ∧
    (∀ x : ToneSignal, c.phase = .answered →
      c.item = some .category ∨ c.item = some .endOfNumber ∨
        (∃ pos, c.item = some (.digit pos) ∧ (s.trunk t).send.pos = pos + 1) →
      (c.noted = some .bt1 → s.toneEvent t (.ceased x) = s.sendsNext t h.unit c) ∧
      (∀ r k, c.noted = some .bt3 → (s.trunk t).record = some r → r.category = some k →
        s.toneEvent t (.ceased x) = s.sends t h.unit .category
          (match k with
            | .ordinary => .ft12
            | .priority => .ft13
            | .test => .ft14) c.lastSent)) ∧
    (∀ x : ToneSignal, c.phase = .answered → (s.trunk t).state = .outSelecting → (s.trunk t).link = none →
      (c.noted = some .bt2 → c.lastSent = none → s.toneEvent t (.ceased x) = s.senderEnds t (.reject .protocol)) ∧
      (c.noted = some .bt4 → s.toneEvent t (.ceased x) = s.senderEnds t .complete) ∧
      (c.noted = some .bt5 → s.toneEvent t (.ceased x) = s.senderEnds t (.reject .congestion)) ∧
      (c.noted = some .bt6 → s.toneEvent t (.ceased x) = s.senderEnds t (.reject .unobtainable)))

/-- A digit signal recognised while listening is stored and entered in the record; HOST reports DIGIT-PROGRESS and
answers BT1, or BT3 where the category is wanted after the first digit; TABLE judges the number, shortens it to a
FIXED length and answers BT6 where it is refused, BT4 where it is complete, BT3 with COMPLETE pending where the
category is wanted too, and BT1 or BT3 otherwise. A full store answers BT5 with CONGESTION. A category is stored and
answered BT1; FT11 is answered BT5 with PROTOCOL where no digit is stored, BT4 in TABLE mode, and held for the host in
HOST mode; FT15 is answered BT5 with PROTOCOL; a pending outcome answers any signal. On a relay inlet whose number is
complete a digit is answered BT1 and discarded and FT11 is held; FT11 completes one that is not. Outside LISTENING a
recognition changes nothing. When the signal ceases a response stops, and the receiver pulses a kept outcome or
listens under the wait that applies; FINAL frees the unit; HELD notes it. (R120, R131, R132, R133, R134, R135, R136,
R138, R139, R141, R142, R157.) The digits, FT11 and FT15 are stated for a trunk in no relay link, and the relay inlet
in clauses of its own. That a relay inlet with its number-complete mark set holds FT11 also where no digit is stored
is log entry 12 (DEDUCED), and that an FT11 which answers a pending outcome leaves the end-received mark clear is log
entry 28 (DEDUCED). -/
def Obligations.ToneReceiverAnswersAndReturnsToListening : Prop :=
  forwardSignals.map ForwardSignal.meaning = [.digit 1, .digit 2, .digit 3, .digit 4, .digit 5, .digit 6, .digit 7,
    .digit 8, .digit 9, .digit 0, .endOfNumber, .category .ordinary, .category .priority, .category .test, .unassigned] ∧
  ∀ (s : State) (t : TrunkNo) (c : ToneReceiver) (h : HeldUnit) (p : Profile) (ds : List Digit),
    p = s.profiles.get (s.trunk t).profile → ds = (s.trunk t).received.digits →
    (s.trunk t).tone = some (.receiver c) → (s.trunk t).unit = some h →
    (∀ f, c.phase ≠ .listening → s.toneEvent t (.recognised (.forward f)) = s) ∧
    (∀ (f : ForwardSignal) (d : Digit) (w : Bool) (y : State), (s.trunk t).link = none → f.meaning = .digit d →
      c.phase = .listening → c.pending = none → ds.length < 24 → p.mode = .host →
      (w = true ↔ p.categoryPolicy = .afterFirstDigit ∧ ds = [] ∧ (s.trunk t).received.category = none ∧
        c.categoryAsked = false) →
      y = (s.mapTrunk t fun r => { r with
        received := { r.received with digits := r.received.digits ++ [d] }
        record := r.record.map fun k => { k with digits := k.digits ++ [d] } }).submit (some t)
        (.digitProgress (s.trunk t).received.category (s.trunk t).received.endReceived (ds ++ [d])) →
      s.toneEvent t (.recognised (.forward f)) =
        if w then y.responds t h.unit .bt3 { c with categoryAsked := true } else y.responds t h.unit .bt1 c) ∧
    (∀ (f : ForwardSignal) (d : Digit) (w : Bool) (y : State) (st : Standing) (len : Option Nat),
      (s.trunk t).link = none → f.meaning = .digit d → c.phase = .listening → c.pending = none → ds.length < 24 →
      p.mode = .table → (s.trunk t).state = .inSelecting →
      (w = true ↔ p.categoryPolicy = .afterFirstDigit ∧ ds = [] ∧ (s.trunk t).received.category = none ∧
        c.categoryAsked = false) →
      analyse s.analysis.toList (s.trunk t).group p.defaultOutcome (ds ++ [d]) = (st, len) →
      y = (s.mapTrunk t fun r => { r with
        received := { r.received with digits := (ds ++ [d]).take (len.getD (ds.length + 1)) }
        record := r.record.map fun k => { k with
          digits := match len with
            | some n => (k.digits ++ [d]).take n
            | none => k.digits ++ [d] }
        standing := some st }) →
      s.toneEvent t (.recognised (.forward f)) =
        if st = .refused then y.respondsLast t h.unit c (.reject .unobtainable)
        else if st = .complete then
          if w then y.responds t h.unit .bt3 { c with
            categoryAsked := true, pending := some { outcome := .complete, own := true } }
          else y.respondsLast t h.unit c .complete
        else if w then y.responds t h.unit .bt3 { c with categoryAsked := true } else y.responds t h.unit .bt1 c) ∧
    (∀ (f : ForwardSignal) (d : Digit), (s.trunk t).link = none → f.meaning = .digit d → c.phase = .listening →
      c.pending = none → 24 ≤ ds.length → (s.trunk t).state = .inSelecting →
      s.toneEvent t (.recognised (.forward f)) = s.respondsLast t h.unit c (.reject .congestion)) ∧
    (∀ (f : ForwardSignal) (k : Category) (x y : State), f.meaning = .category k → c.phase = .listening →
      x = (s.mapTrunk t fun r => { r with
        received := { r.received with category := some k }
        record := r.record.map fun e => { e with category := some k } }) →
      y = (if p.mode = .host then x.submit (some t) (.digitProgress (some k) (s.trunk t).received.endReceived ds) else x) →
      (c.pending = none → s.toneEvent t (.recognised (.forward f)) = y.responds t h.unit .bt1 c) ∧
      (∀ o, c.pending = some o → (s.trunk t).state = .inSelecting →
        s.toneEvent t (.recognised (.forward f)) = y.respondsLast t h.unit c o.outcome)) ∧
    (∀ (f : ForwardSignal) (o : PendingOutcome), (∀ k, f.meaning ≠ .category k) → c.phase = .listening →
      c.pending = some o → (s.trunk t).state = .inSelecting →
      s.toneEvent t (.recognised (.forward f)) = s.respondsLast t h.unit c o.outcome) ∧
    (∀ y : State, (s.trunk t).link = none → c.phase = .listening → c.pending = none →
      y = (s.mapTrunk t fun r => { r with received := { r.received with endReceived := true } }) →
      (ds = [] → (s.trunk t).state = .inSelecting →
        s.toneEvent t (.recognised (.forward .ft11)) = y.respondsLast t h.unit c (.reject .protocol)) ∧
      (ds ≠ [] → p.mode = .table → (s.trunk t).state = .inSelecting →
        s.toneEvent t (.recognised (.forward .ft11)) = y.respondsLast t h.unit c .complete) ∧
      (ds ≠ [] → p.mode = .host →
        s.toneEvent t (.recognised (.forward .ft11)) = (y.mapTrunk t fun r => { r with
          tone := some (.receiver { c with
            phase := .held, heldCeased := false
            timer := some { kind := .hostDecision, left := 1000 * p.hostDecision } }) }).submit (some t)
              (.digitProgress (s.trunk t).received.category true ds))) ∧
    ((s.trunk t).link = none → c.phase = .listening → c.pending = none → (s.trunk t).state = .inSelecting →
      s.toneEvent t (.recognised (.forward .ft15)) = s.respondsLast t h.unit c (.reject .protocol)) ∧
    (∀ peer, (s.trunk t).link = some { peer := peer, part := .inlet } → c.phase = .listening → c.pending = none →
      (∀ f d, c.complete = true → f.meaning = .digit d →
        s.toneEvent t (.recognised (.forward f)) = s.responds t h.unit .bt1 c) ∧
      (c.complete = true → s.toneEvent t (.recognised (.forward .ft11)) = s.mapTrunk t fun r => { r with
        received := { r.received with endReceived := true }
        tone := some (.receiver { c with phase := .held, heldCeased := false, timer := none }) }) ∧
      (c.complete = false → ds ≠ [] → (s.trunk t).decadic = none → peer ≠ t → (s.trunk peer).decadic = none → (s.trunk peer).tone = none →
        s.toneEvent t (.recognised (.forward .ft11)) = (s.mapTrunk t fun r => { r with
          received := { r.received with endReceived := true }
          linkRecord := r.linkRecord.map fun l => { l with inletComplete := true }
          tone := some (.receiver { c with
            phase := .held, heldCeased := false, timer := none, complete := true }) }).mapTrunk peer fun r => { r with
              send := { r.send with endFlag := true } })) ∧
    (∀ x : ToneSignal, c.phase = .responding →
      (∀ o, c.pending = some { outcome := o, own := false } → (s.trunk t).state = .inSelecting →
        s.toneEvent t (.ceased x) = s.pulses t h.unit c o) ∧
      ((∀ o, c.pending ≠ some { outcome := o, own := false }) →
        s.toneEvent t (.ceased x) =
          (s.mapUnit h.unit fun u => { u with generation := none }).mapTrunk t fun r => { r with
            tone := some (.receiver { c with
              phase := .listening
              timer := if c.complete then none
                else if p.mode = .table ∧ (s.trunk t).standing = some .openNumber then
                  some { kind := .openNumber, left := 1000 * p.openNumberWait }
                else some { kind := .interDigit, left := 1000 * p.interDigitWait } }) })) ∧
    (∀ x : ToneSignal,
      (c.phase = .final → s.toneEvent t (.ceased x) =
        (s.mapTrunk t fun r => { r with tone := none, unit := none }).frees (some h)) ∧
      (c.phase = .held → s.toneEvent t (.ceased x) =
        s.mapTrunk t fun r => { r with tone := some (.receiver { c with heldCeased := true }) }) ∧
      (c.phase = .listening ∨ c.phase = .pulsing → s.toneEvent t (.ceased x) = s))

/-- The pulse timer, and the interlock timer in FINAL, end the context and free and hand on the unit; the interlock
timer in RESPONDING rejects with PROTOCOL; a digit wait in LISTENING pulses a pending outcome, completes the number
with a BT4 pulse or rejects it with DIGIT-TIMEOUT and a BT5 pulse, and on a relay inlet hands a completion to the
link; the host decision wait on a held FT11 rejects with CONGESTION by BT5, as a pulse where the signal has ceased and
as a response otherwise. (R58, R92, R136, R137, R138, R139, R140, R141, R142, R163.) -/
def Obligations.ReceiverTimersEndTheRegisterPhase : Prop :=
  ∀ (s : State) (t : TrunkNo) (c : ToneReceiver) (h : HeldUnit) (p : Profile), p = s.profiles.get (s.trunk t).profile →
    s.hwi.alignment ≠ .hold → (s.trunk t).tone = some (.receiver c) → (s.trunk t).unit = some h →
    (∀ e ∈ s.callQueue, e.trunk ≠ t) →
    (c.timer = some { kind := .pulse, left := 0 } →
      ∃ u, exec (.pulseTimerExpiry t) s = .next u ∧ (u.trunk t).tone = none ∧ (u.trunk t).unit = none ∧
        s.sparesOthers u t ∧ s.keepsSettings u ∧ (u.trunk t).state = (s.trunk t).state ∧ u.rqa = s.rqa ∧
        (s.callQueue = [] → s.testQueue = [] → (u.unit h.unit).status = .free)) ∧
    (c.timer = some { kind := .interlock, left := 0 } → c.phase = .responding → (s.trunk t).state = .inSelecting →
      (s.trunk t).link = none →
      ∃ u, exec (.receiverInterlockExpiry t) s = .next u ∧ s.rejectedIn u t .protocol ∧ (u.trunk t).tone = none ∧
        (u.trunk t).unit = none) ∧
    (∀ k, c.timer = some { kind := k, left := 0 } → k = .interDigit ∨ k = .openNumber → c.phase = .listening →
      c.pending = none → (s.trunk t).state = .inSelecting → (s.trunk t).link = none →
      ∃ u, exec (.receiverDigitWaitExpiry t) s = .next u ∧
        (u.trunk t).tone = some (.receiver { c with
          phase := .pulsing, timer := some { kind := .pulse, left := p.pulseDuration } }) ∧
        if k = .openNumber ∨ (p.mode = .host ∧ (s.trunk t).received.digits ≠ []) then
          s.completedIn u t ∧ (u.unit h.unit).generation =
            some { sig := .backward .bt4, amplitude := p.sendAmplitude, n := 0 }
        else s.rejectedIn u t .digitTimeout ∧ (u.unit h.unit).generation =
          some { sig := .backward .bt5, amplitude := p.sendAmplitude, n := 0 }) ∧
    (c.timer = some { kind := .hostDecision, left := 0 } → c.phase = .held → c.pending = none →
      (s.trunk t).state = .inSelecting →
      ∃ u, exec (.hostDecisionWaitExpiry t) s = .next u ∧ s.rejectedIn u t .congestion ∧
        (u.unit h.unit).generation = some { sig := .backward .bt5, amplitude := p.sendAmplitude, n := 0 } ∧
        (u.trunk t).tone = some (.receiver (if c.heldCeased then
            { c with phase := .pulsing, timer := some { kind := .pulse, left := p.pulseDuration } }
          else { c with phase := .final, timer := some { kind := .interlock, left := 1000 * p.interlock } }))) ∧
    (c.timer = some { kind := .pulse, left := 0 } → exec (.pulseTimerExpiry t) s =
      .next ((s.mapTrunk t fun r => { r with tone := none, unit := none }).frees (some h))) ∧
    (c.timer = some { kind := .interlock, left := 0 } → c.phase = .final → exec (.receiverInterlockExpiry t) s =
      .next ((s.mapTrunk t fun r => { r with tone := none, unit := none }).frees (some h))) ∧
    (c.timer = some { kind := .interlock, left := 0 } → c.phase = .responding → (s.trunk t).state = .inSelecting →
      (s.trunk t).link = none → exec (.receiverInterlockExpiry t) s =
        .next (((s.mapTrunk t fun r => { r with tone := none, unit := none }).frees (some h)).endsIn t (.reject .protocol))) ∧
    (∀ k, c.timer = some { kind := k, left := 0 } → k = .interDigit ∨ k = .openNumber → c.phase = .listening →
      (∀ o, c.pending = some o → (s.trunk t).state = .inSelecting →
        exec (.receiverDigitWaitExpiry t) s = .next (s.pulses t h.unit c o.outcome)) ∧
      (∀ o, c.pending = none → (s.trunk t).state = .inSelecting → (s.trunk t).link = none →
        o = (if k = .openNumber ∨ (p.mode = .host ∧ (s.trunk t).received.digits ≠ []) then .complete
          else .reject .digitTimeout) →
        exec (.receiverDigitWaitExpiry t) s = .next (s.pulses t h.unit c o)) ∧
      (∀ peer, c.pending = none → k = .openNumber ∨ (p.mode = .host ∧ (s.trunk t).received.digits ≠ []) →
        (s.trunk t).link = some { peer := peer, part := .inlet } → (s.trunk t).decadic = none → peer ≠ t →
        (s.trunk peer).decadic = none → (s.trunk peer).tone = none →
        exec (.receiverDigitWaitExpiry t) s = .next ((s.mapTrunk t fun r => { r with
          linkRecord := r.linkRecord.map fun l => { l with inletComplete := true }
          tone := some (.receiver { c with timer := none, complete := true }) }).mapTrunk peer fun r => { r with
            send := { r.send with endFlag := true } }))) ∧
    (c.timer = some { kind := .hostDecision, left := 0 } → c.phase = .held → c.pending = none →
      (s.trunk t).state = .inSelecting →
      exec (.hostDecisionWaitExpiry t) s = .next (s.takesOutcome t h.unit c (.reject .congestion)))

/-- A condition report merges into a queued one of its kind and trunk, joins below 56 entries and is dropped with the
condition-loss flag otherwise; a sequenced report joins below 64 entries and is dropped with the sequence-loss flag
and a REPORT-LOSS capture otherwise; ATTN is judged afresh, the threshold and the hold time stay, and nothing else
changes. (R192, R194, R195, R198.) -/
def Obligations.ReportsJoinMergeOrAreDropped : Prop :=
  ∀ (s u : State) (t : Option TrunkNo) (b : ReportBody), u = s.submit t b →
    (b.isCondition = true → (∃ e ∈ s.rqa.entries, e.body.kindCode = b.kindCode ∧ e.trunk = t) →
      u.rqa.entries = s.rqa.entries.map (fun e => if e.body.kindCode = b.kindCode ∧ e.trunk = t then
        { e with body := b, stamp := s.tmb.counter, repeats := min 255 (e.repeats + 1) } else e) ∧
      u.rqa.conditionLoss = s.rqa.conditionLoss) ∧
    (b.isCondition = true → (¬ ∃ e ∈ s.rqa.entries, e.body.kindCode = b.kindCode ∧ e.trunk = t) →
      s.rqa.entries.length < 56 →
      u.rqa.entries = s.rqa.entries ++ [{ body := b, trunk := t, stamp := s.tmb.counter, repeats := 0, age := 0 }] ∧
      u.rqa.conditionLoss = s.rqa.conditionLoss) ∧
    (b.isCondition = true → (¬ ∃ e ∈ s.rqa.entries, e.body.kindCode = b.kindCode ∧ e.trunk = t) →
      56 ≤ s.rqa.entries.length → u.rqa.entries = s.rqa.entries ∧ u.rqa.conditionLoss = true) ∧
    (b.isCondition = false → s.rqa.entries.length < 64 →
      u.rqa.entries = s.rqa.entries ++ [{ body := b, trunk := t, stamp := s.tmb.counter, repeats := 0, age := 0 }] ∧
      u.rqa.sequenceLoss = s.rqa.sequenceLoss ∧ u.fault = s.fault) ∧
    (b.isCondition = false → 64 ≤ s.rqa.entries.length →
      u.rqa.entries = s.rqa.entries ∧ u.rqa.sequenceLoss = true ∧
      (s.fault.held = none → u.fault =
        { held := some { kind := .reportLoss, trunk := t, time := s.tmb.counter }, further := false }) ∧
      (s.fault.held ≠ none → u.fault = { s.fault with further := true })) ∧
    (b.isCondition = true → u.fault = s.fault ∧ u.rqa.sequenceLoss = s.rqa.sequenceLoss) ∧
    (b.isCondition = false → u.rqa.conditionLoss = s.rqa.conditionLoss) ∧
    (u.rqa.attn = true ↔ ∃ e rest, u.rqa.entries = e :: rest ∧
      (s.rqa.threshold ≤ rest.length + 1 ∨ 10 * s.rqa.holdTime ≤ e.age)) ∧
    u.rqa.threshold = s.rqa.threshold ∧ u.rqa.holdTime = s.rqa.holdTime ∧ u = { s with rqa := u.rqa, fault := u.fault }

/-- The event of the hold time being reached changes nothing but ATTN, which is low exactly when the queue is not
empty and holds at least the threshold of entries or its oldest entry is at least the hold time old. (R195.) -/
def Obligations.AttentionFollowsTheOldestReport : Prop :=
  ∀ s : State, ∃ u, exec .attnHoldTimeReached s = .next u ∧ u = { s with rqa := { s.rqa with attn := u.rqa.attn } } ∧
    (u.rqa.attn = true ↔ ∃ e rest, s.rqa.entries = e :: rest ∧
      (s.rqa.threshold ≤ rest.length + 1 ∨ 10 * s.rqa.holdTime ≤ e.age))

/-- For each of the 25 message types and every payload of up to 249 bytes, the frame with that TYPE, its LEN and its
CHECK, addressed to a unit with a valid address that holds no command, ends the collection (state IDLE, buffer empty)
and has the effect of the command on that payload. (R182, R183, R184.) -/
def Obligations.FrameHandsItsPayloadToTheCommand : Prop :=
  ∀ x ∈ messageTypes, ∀ (s : State) (p : List Byte), p.length ≤ 249 → s.clk.addressValid = true → s.clk.reply = none →
    exec (.commandFrame (ownFrame x.1 p)) s =
      exec (x.2 p) { s with clk := { s.clk with collection := .idle, buffer := [], errored := false } }

/-- A frame to a unit with an invalid address changes nothing. Every other frame ends the collection: one with an
error, no TYPE or a wrong CHECK is answered BAD-FRAME and one of an unlisted TYPE UNKNOWN-TYPE; a broadcast frame with
an error or of a TYPE other than RESET and TIME-MARK changes nothing more, and those two run their broadcast commands.
(R181, R183, R184, R186, R187.) -/
def Obligations.FramesThatReachNoCommand : Prop :=
  ∀ (s e : State) (f : Frame), f.wellFormed = true → s.clk.reply = none →
    e = { s with clk := { s.clk with collection := .idle, buffer := [], errored := false } } →
    (f.dest = .own → s.clk.addressValid = false → exec (.commandFrame f) s = .next s) ∧
    (f.dest = .own → s.clk.addressValid = true → f.errored = true ∨ f.data.length = 1 ∨ f.data.foldl (· + ·) 0 ≠ 0 →
      exec (.commandFrame f) s = .next (e.sendReply (f.data[1]?.getD 0) .badFrame [])) ∧
    (∀ ty, f.dest = .own → s.clk.addressValid = true → f.errored = false → f.data[1]? = some ty →
      f.data.foldl (· + ·) 0 = 0 → ty ∉ messageTypes.map Prod.fst →
      exec (.commandFrame f) s = .next (e.sendReply ty .unknownType [])) ∧
    (f.dest = .broadcast → f.errored = true ∨ f.data.length = 1 ∨ f.data.foldl (· + ·) 0 ≠ 0 →
      exec (.commandFrame f) s = .next e) ∧
    (∀ ty, f.dest = .broadcast → f.data[1]? = some ty → ty ≠ 0x34 → ty ≠ 0x35 → exec (.commandFrame f) s = .next e) ∧
    (∀ p, p.length ≤ 249 → f = { ownFrame 0x34 p with dest := .broadcast } →
      exec (.commandFrame f) s = exec (.reset .broadcast p) e) ∧
    (∀ p, p.length ≤ 249 → f = { ownFrame 0x35 p with dest := .broadcast } →
      exec (.commandFrame f) s = exec (.timeMark .broadcast p) e)

/-- A frame that ends while a reply is held ends the collection, is discarded and sets the overrun flag; the completed
reply releases the command, and after an accepted RESET carries out the reset. (R183, R185, R187.) -/
def Obligations.HeldCommandDiscardsFrames : Prop :=
  ∀ (s : State) (f : Frame) (r : List CharBits), f.wellFormed = true → s.clk.reply = some r →
    (f.dest = .broadcast ∨ s.clk.addressValid = true →
      exec (.commandFrame f) s = .next { s with clk := { s.clk with
        overrun := true, collection := .idle, buffer := [], errored := false } }) ∧
    (s.clk.resetPending = false → exec .replyComplete s = .next { s with clk := { s.clk with reply := none } }) ∧
    (s.clk.resetPending = true → exec .replyComplete s = exec (.reset .broadcast []) s)

/-- For data of up to 248 bytes the reply formed is the characters of the header with the unit address, with marker 1,
and of LEN, TYPE with bit 7, the status byte with the overrun flag in bit 7, the data and the CHECK that makes the sum
from LEN on 0, all with marker 0; the overrun flag is cleared and nothing else changes. A character is a start bit at
0, eight data bits least significant first, the marker and a stop bit at 1. (R178, R183, R186.) -/
def Obligations.RepliesAreCheckedFrames : Prop :=
  (∀ (s : State) (ty : Byte) (st : Status) (d : List Byte), d.length ≤ 248 →
    ∃ (body : List Byte) (check : Byte), body = [BitVec.ofNat 8 (2 + d.length), ty ||| 0x80,
        BitVec.ofNat 8 (st.code + if s.clk.overrun then 128 else 0)] ++ d ∧
      (body ++ [check]).foldl (· + ·) 0 = 0 ∧
      s.sendReply ty st d = { s with clk := { s.clk with
        reply := some (charBits (BitVec.ofNat 8 (128 + s.clk.address.toNat)) true ::
          (body ++ [check]).map fun x => charBits x false)
        overrun := false } }) ∧
    ∀ (data : Byte) (marker : Bool), (charBits data marker).getLsbD 0 = false ∧
      (∀ k < 8, (charBits data marker).getLsbD (k + 1) = data.getLsbD k) ∧
      (charBits data marker).getLsbD 9 = marker ∧ (charBits data marker).getLsbD 10 = true

/-- Samples are taken one after another. While the line stays at its level in SEARCHING nothing is received, and after
a framing error none is until it has risen. A start bit that votes 1 is given up at its ninth sample. Otherwise the
ninth sample of the stop bit hands on the character with the voted data bits and marker, with a framing error where
the stop bit votes 0: a marked character without one begins a frame to this unit's valid address or to address 31 and
ends any other; in IDLE any other character is discarded; while a frame is collected it is stored, and the frame ends
at an unreadable or out-of-range LEN or at LEN + 2 characters. A character sent cleanly is 16 samples of each of its
eleven bits. (R178, R180, R182, R183.) Samples are counted from 1 in the spec and from 0 in the model; the moment of
the start bit's vote is log entry 14. The operand of CHARACTER_RECEIVED is any run of samples (log entry 14). -/
def Obligations.CharactersAreVotedAndCarried : Prop :=
  (∀ (s u : State) (x y : List Bool), exec (.characterReceived x) s = .next u →
    exec (.characterReceived (x ++ y)) s = exec (.characterReceived y) u) ∧
  (∀ (s : State) (x : List Bool) (b : Bool), s.clk.receiver = { search := .searching, level := false } →
    (∀ v ∈ x, v = false) → exec (.characterReceived (x ++ [b])) s =
      .next { s with clk := { s.clk with receiver := { search := .searching, level := b } } }) ∧
  (∀ (s : State) (x : List Bool), s.clk.receiver.search = .searching → (∀ v ∈ x, v = true) →
    exec (.characterReceived (x ++ [true])) s =
      .next { s with clk := { s.clk with receiver := { search := .searching, level := true } } }) ∧
  (∀ (s : State) (x : List Bool), s.clk.receiver = { search := .searching, level := true } → x.length = 9 →
    x[0]? = some false → 2 ≤ ((x.drop 6).take 3).count true →
    exec (.characterReceived x) s =
      .next { s with clk := { s.clk with receiver := { search := .searching, level := x.getD 8 true } } }) ∧
  (∀ (s v : State) (x : List Bool) (bit : Nat → Bool) (data : Byte) (marker err : Bool),
    s.clk.receiver = { search := .searching, level := true } → x.length = 169 → x[0]? = some false →
    (∀ k, bit k = true ↔ 2 ≤ ((x.drop (16 * k + 6)).take 3).count true) → bit 0 = false →
    (∀ k < 8, data.getLsbD k = bit (k + 1)) → marker = bit 9 → err = !bit 10 →
    v = { s with clk := { s.clk with receiver := { search := .searching, level := x.getD 168 true } } } →
    (marker = true → err = false → exec (.characterReceived x) s = .next { v with clk := { v.clk with
      collection := if data.toNat = 31 then .broadcast
        else if data.toNat < 32 ∧ s.clk.addressValid = true ∧ data.toNat = s.clk.address.toNat then .own else .idle
      buffer := [], errored := false } }) ∧
    (marker = false ∨ err = true → s.clk.collection = .idle → exec (.characterReceived x) s = .next v) ∧
    ∀ (dest : Dest) (buf : List Byte) (e : Bool), marker = false ∨ err = true →
      s.clk.collection = (match dest with
        | .own => .own
        | .broadcast => .broadcast) →
      (dest = .own → s.clk.addressValid = true) → (∀ l ∈ s.clk.buffer.head?, 1 ≤ l.toNat ∧ l.toNat ≤ 250) →
      buf = s.clk.buffer ++ [data] → e = (s.clk.errored || err) →
      (s.clk.buffer = [] ∧ (e = true ∨ data.toNat = 0 ∨ 250 < data.toNat) ∨
          (∃ l ∈ s.clk.buffer.head?, buf.length = l.toNat + 2) →
        exec (.characterReceived x) s = exec (.commandFrame { dest := dest, errored := e, data := buf }) v) ∧
      (¬ (s.clk.buffer = [] ∧ (e = true ∨ data.toNat = 0 ∨ 250 < data.toNat)) →
          (∀ l ∈ s.clk.buffer.head?, buf.length ≠ l.toNat + 2) →
        exec (.characterReceived x) s = .next { v with clk := { v.clk with buffer := buf, errored := e } })) ∧
  ∀ c : Character, c.samples.length = 176 ∧ ∀ k : Nat, k < 176 → c.samples[k]? = some
    (if k < 16 then false else if k < 144 then c.data.getLsbD (k / 16 - 1) else if k < 160 then c.marker
      else !c.framingError)

/-- For a well-formed frame without error, addressed to the unit's valid address or broadcast, hearing its header and
its data characters, with the receiver in SEARCHING and the line at rest, has the effect of the COMMAND FRAME. (R178,
R181, R182, R183.) -/
def Obligations.CharactersAssembleTheFrame : Prop :=
  ∀ (s : State) (f : Frame) (header : Byte), f.wellFormed = true → f.errored = false →
    s.clk.receiver = { search := .searching, level := true } →
    (f.dest = .own ∧ header = s.clk.address.setWidth 8 ∧ s.clk.addressValid = true ∧ s.clk.address ≠ 31) ∨
      (f.dest = .broadcast ∧ header = 31) →
    .next (s.hears (frameCharacters f header)) = exec (.commandFrame f) s

/-- Each query completes and changes nothing but the reply, whose data are given byte by byte: the 49-byte profile in
the order of R21 and R22, the 12-byte entry of R153, the 30 bytes of R72 of any equipped trunk, the units and queues
of R102, and the revision, address, rate, counter, source and alignment state. (R21, R22, R28, R72, R102, R153, R154,
R188, R190.) -/
def Obligations.QueriesReturnTheStoredRecords : Prop :=
  ∀ (s : State) (two four : Nat → List Byte) (opt : Option Nat → Byte),
    (∀ n, two n = [BitVec.ofNat 8 (n / 256), BitVec.ofNat 8 n]) →
    (∀ n, four n = [BitVec.ofNat 8 (n / 16777216), BitVec.ofNat 8 (n / 65536), BitVec.ofNat 8 (n / 256), BitVec.ofNat 8 n]) →
    (∀ o, opt o = BitVec.ofNat 8 (o.getD 255)) →
    (∀ (n : ProfileNo) (p : Profile), p = s.profiles.get n → exec (.getProfile [byte n.val]) s =
      .next (s.sendReply 0x02 .ok ([byte n.val] ++
        [p.codes.fIdle, p.codes.fSeize, p.codes.fClear, p.codes.bIdle, p.codes.bAck, p.codes.bAnswer, p.codes.bClearback,
          p.codes.bBlock, p.codes.bGuard].map (·.setWidth 8) ++
        [byte ([RegisterMethod.noRegister, .decadic, .tone].idxOf p.method), byte ([AnalysisMode.host, .table].idxOf p.mode),
          byte ([DefaultOutcome.openNumber, .refuse].idxOf p.defaultOutcome),
          byte ([CategoryPolicy.never, .afterFirstDigit].idxOf p.categoryPolicy), if p.holdCount then 1 else 0,
          byte p.linePersistence, byte p.pulsePersistence] ++
        two p.ackTimer ++ two p.releaseTimer ++ two p.guardTimer ++
        [byte p.answerWait, byte p.clearBackTimer, byte p.sendBreak, byte p.sendMake] ++ two p.sendPause ++
        [byte p.breakMin, byte p.breakMax, byte p.makeMin] ++ two p.digitEnd ++ two p.clearRecognition ++
        [byte p.firstDigitWait, byte p.interDigitWait, byte p.openNumberWait, byte p.senderDigitWait] ++ two p.unitWait ++
        two p.minAmplitude ++ two p.sendAmplitude ++ [byte p.interlock] ++ two p.pulseDuration ++
        [byte p.hostDecision]))) ∧
    (∀ (k : Fin 32) (e : AnalysisEntry), e = s.analysis.get k → exec (.getAnalysis [byte k.val]) s =
      .next (s.sendReply 0x05 .ok ([byte k.val, if e.valid then 1 else 0, e.groups, byte e.patternLength] ++
        (e.pattern.toList.map fun o => byte ((o.map Fin.val).getD 10)) ++
        [byte ([AnalysisOutcome.fixed, .openNumber, .refuse].idxOf e.outcome), byte e.length]))) ∧
    (∀ (t : TrunkNo) (r : Trunk), r = s.trunk t → r.role ≠ .unequipped → exec (.queryTrunk [byte t.val]) s =
      .next (s.sendReply 0x19 .ok
        ([byte t.val, byte ([Role.unequipped, .outgoing, .incoming, .bothWay].idxOf r.role), byte r.profile.val,
          byte r.group.val, byte ([GlareRole.yield, .priority].idxOf r.glare), if r.localBlock then 1 else 0,
          if r.remoteBlock then 1 else 0,
          byte ([TrunkState.unequipped, .idle, .localBlocked, .remoteBlocked, .failed, .outSeizing, .outSelecting,
            .outWaitAnswer, .outAnswered, .outClearback, .outRejected, .outClearing, .inSelecting, .inWaitAnswer, .inAnswered,
            .inClearback, .inRejected, .inGuard].idxOf r.state),
          opt (r.cause.map ([Cause.normal, .ackTimeout, .releaseTimeout, .noAnswer, .clearbackTimeout, .noUnit,
            .digitTimeout, .interlockTimeout, .protocol, .congestion, .unobtainable, .holdLimit, .inletCleared, .overflow,
            .reset].idxOf ·)),
          r.sentCode.setWidth 8, opt (r.lcr.accepted.map (·.toNat)), opt (r.lcr.candidate.map (·.code.toNat)),
          byte ((r.lcr.candidate.map (·.count)).getD 0), byte ([FilterMode.line, .pulse].idxOf r.lcr.mode),
          opt (r.timer.map fun x => [SupervisionKind.ack, .answerWait, .clearBack, .release, .guard].idxOf x.kind)] ++
        four ((r.timer.map (·.left)).getD 0) ++
        [opt (r.unit.map (·.unit.val)), opt (r.unit.map fun x => [UnitRole.sender, .receiver].idxOf x.role),
          opt ((s.callQueue.findIdx? fun e => e.trunk == t).map (· + 1)), opt (r.link.map (·.peer.val)),
          opt (r.link.map fun x => [LinkPart.inlet, .outlet].idxOf x.part)] ++
        two ((r.callRef.map (·.toNat)).getD 0) ++
        [byte ((if r.callRef.isSome then 1 else 0) + (if r.record.isSome then 2 else 0) +
            (if r.timer.isSome ∧ s.hwi.alignment = .hold then 4 else 0)),
          byte r.received.digits.length, byte r.send.digits.length, byte r.send.pos]))) ∧
    (∀ hold : Byte, hold = (if s.hwi.alignment = .hold then 1 else 0) → exec (.queryPool []) s =
      .next (s.sendReply 0x21 .ok ((s.units.toList.map fun u => match u.status with
          | .free => [0x00#8, 0xFF#8, 0xFF#8, 0xFF#8]
          | .signalling t role => [0x01#8, byte t.val, byte ([UnitRole.sender, .receiver].idxOf role), 0xFF#8]
          | .measuring t asked done => [0x02#8, byte t.val, byte asked, byte done]).flatten ++
        [byte s.callQueue.length] ++ (s.callQueue.map fun e =>
          [byte e.trunk.val, byte ([UnitRole.sender, .receiver].idxOf e.role)] ++ two e.left ++ [hold]).flatten ++
        [byte s.testQueue.length] ++ (s.testQueue.map fun r =>
          [byte r.trunk.val, byte r.blocks] ++ two r.left ++ [hold]).flatten))) ∧
    exec (.identify []) s = .next (s.sendReply 0x33 .ok
      ([1, s.clk.address.setWidth 8, s.clk.rate.setWidth 8] ++
        [s.tmb.counter.extractLsb' 24 8, s.tmb.counter.extractLsb' 16 8, s.tmb.counter.extractLsb' 8 8,
          s.tmb.counter.extractLsb' 0 8] ++
        [if s.tmb.source = .highway then 0x00#8 else 0x01#8,
          match s.hwi.alignment with
          | .searching => 0x00#8
          | .aligned => 0x01#8
          | .hold => 0x02#8]))

/-- SET-TRUNK in a state without a call and without a measurement writes role, profile, group and glare role, clears
the remote-block flag, the cause and the line-code receiver and enters UNEQUIPPED, LOCAL-BLOCKED or IDLE with its sent
code; the reply is OK and nothing else changes. (R31, R32, R35, R38.) -/
def Obligations.SetTrunkWritesTheConfiguration : Prop :=
  ∀ (s : State) (t : TrunkNo) (role : Role) (n : ProfileNo) (g : GroupNo) (glare : GlareRole),
    (role = .bothWay → (s.profiles.get n).codes.validBothWay = true) →
    (s.trunk t).state ∈ [TrunkState.unequipped, .idle, .localBlocked, .remoteBlocked, .failed] →
    (∀ u asked done, (s.unit u).status ≠ .measuring t asked done) → (∀ r ∈ s.testQueue, r.trunk ≠ t) →
    exec (.setTrunk [byte t.val, byte role.code, byte n.val, byte g.val, byte glare.code]) s =
      .next ((s.mapTrunk t fun r =>
        let st : TrunkState :=
          if role = .unequipped then .unequipped else if r.localBlock then .localBlocked else .idle
        { r with
          role := role, profile := n, group := g, glare := glare, remoteBlock := false, cause := none
          lcr := { accepted := none, candidate := none, mode := .line }
          state := st, sentCode := sentCodeOf (s.profiles.get n).codes role st }).sendReply 0x03 .ok [])

/-- The 12 bytes of a valid entry sent by SET-ANALYSIS replace the indexed entry and nothing else, and GET-ANALYSIS
then returns the same bytes. (R152, R153, R154, R158.) -/
def Obligations.AnalysisEntriesAreStoredAndReadBack : Prop :=
  ∀ (s : State) (k : Fin 32) (e : AnalysisEntry), e.sound →
    ∃ u : State, exec (.setAnalysis (e.bytes k.val)) s = .next (u.sendReply 0x04 .ok []) ∧
      u = { s with analysis := s.analysis.set k e } ∧
      exec (.getAnalysis [byte k.val]) u = .next (u.sendReply 0x05 .ok (e.bytes k.val))

/-- A payload of three bytes stores the threshold clamped to 1 to 64, the hold time and the hold limit of at least 1,
replies with them, OK-CLAMPED where one was clamped, judges ATTN under them and rebases a running hold limit timer;
any other length is refused with BAD-LENGTH. (R12, R196.) That a running hold limit timer is moved only where the
limit differs, and keeps at least one event, rests on R12 and log entry 24. -/
def Obligations.SetReportingStoresThreeValuesAtOnce : Prop :=
  ∀ (s : State) (a b c : Byte) (p : List Byte) (th limit : Nat), th = min 64 (max 1 a.toNat) → limit = max 1 c.toNat →
    (∃ u : State, exec (.setReporting [a, b, c]) s = .next (u.sendReply 0x06
        (if th = a.toNat ∧ limit = c.toNat then .ok else .okClamped) [BitVec.ofNat 8 th, b, BitVec.ofNat 8 limit]) ∧
      u = { s with
        rqa := { s.rqa with threshold := th, holdTime := b.toNat, attn := u.rqa.attn }
        hwi := { s.hwi with holdLimit := limit, holdTimer := u.hwi.holdTimer } } ∧
      (u.rqa.attn = true ↔ ∃ e rest, s.rqa.entries = e :: rest ∧ (th ≤ rest.length + 1 ∨ 10 * b.toNat ≤ e.age)) ∧
      (∀ x, s.hwi.holdTimer = some x → s.hwi.holdLimit ≠ limit →
        u.hwi.holdTimer = some { spent := x.spent, left := max 1 (100 * limit - x.spent) }) ∧
      (s.hwi.holdTimer = none ∨ s.hwi.holdLimit = limit → u.hwi.holdTimer = s.hwi.holdTimer)) ∧
    (p.length ≠ 3 → exec (.setReporting p) s = .next (s.sendReply 0x06 .badLength []))

/-- ANSWER in IN-WAIT-ANSWER sends B-ANSWER and stamps and counts the answer, and in IN-CLEARBACK counts it;
CLEAR-BACK sends B-CLEARBACK; BLOCK sets the flag and takes a free trunk into LOCAL-BLOCKED; UNBLOCK clears it and
takes a trunk in LOCAL-BLOCKED into IDLE, where its accepted code, whatever it is, is decoded at once; each replies OK
and changes nothing else. (R35, R37, R38, R39, R59, R60, R65, R66, R67, R171, R176.) That a remote-block flag is
cleared before the action taken at the same code is log entry 21 (DEDUCED). -/
def Obligations.HostAnswersClearsBackBlocksAndUnblocks : Prop :=
  ∀ (s : State) (t : TrunkNo) (p : Profile), p = s.profiles.get (s.trunk t).profile → (s.trunk t).role ≠ .unequipped →
    ((s.trunk t).state = .inWaitAnswer → exec (.answer [byte t.val]) s = .next (((s.mapTrunk t fun r =>
        { r with
          state := .inAnswered, sentCode := p.codes.bAnswer
          record := r.record.map fun k => { k with
            answerTime := some (k.answerTime.getD s.tmb.counter), answerCount := min 255 (k.answerCount + 1) } }).countFor t
        fun c => { c with inAnswered := min 4294967295 (c.inAnswered + 1) }).sendReply 0x13 .ok [])) ∧
    ((s.trunk t).state = .inClearback → exec (.answer [byte t.val]) s = .next ((s.mapTrunk t fun r =>
        { r with
          state := .inAnswered, sentCode := p.codes.bAnswer
          record := r.record.map fun k => { k with answerCount := min 255 (k.answerCount + 1) } }).sendReply 0x13 .ok [])) ∧
    ((s.trunk t).state = .inAnswered → exec (.clearBack [byte t.val]) s = .next ((s.mapTrunk t fun r =>
        { r with state := .inClearback, sentCode := p.codes.bClearback }).sendReply 0x14 .ok [])) ∧
    ((s.trunk t).state = .idle ∨ (s.trunk t).state = .remoteBlocked → exec (.block [byte t.val]) s =
      .next ((s.mapTrunk t fun r => { r with
        localBlock := true, state := .localBlocked
        sentCode := if r.role = .outgoing then p.codes.fIdle else p.codes.bBlock }).sendReply 0x16 .ok [])) ∧
    ((s.trunk t).state ≠ .idle → (s.trunk t).state ≠ .remoteBlocked → exec (.block [byte t.val]) s =
      .next ((s.mapTrunk t fun r => { r with localBlock := true }).sendReply 0x16 .ok [])) ∧
    ((s.trunk t).state = .localBlocked → ∀ y : State, y = s.mapTrunk t (fun r => { r with
        localBlock := false, state := .idle
        sentCode := if r.role = .incoming then p.codes.bIdle else p.codes.fIdle }) →
      exec (.unblock [byte t.val]) s = .next ((y.idleDecodes t).sendReply 0x17 .ok []) ∧
      ((s.trunk t).lcr.accepted = none → exec (.unblock [byte t.val]) s = .next (y.sendReply 0x17 .ok []))) ∧
    ((s.trunk t).state ≠ .localBlocked → exec (.unblock [byte t.val]) s =
      .next ((s.mapTrunk t fun r => { r with localBlock := false }).sendReply 0x17 .ok []))

/-- A 49-byte record whose codes pass the validation, and the both-way conditions where a both-way trunk names the
profile, is stored with every numeric setting moved to the nearer limit where it was out of range (OK-CLAMPED), and
every equipped trunk that names it sends its state's code under the new codes. Then each such trunk in IDLE,
REMOTE-BLOCKED or FAILED has its accepted code decoded afresh. Nothing else changes. (R21, R22, R23, R24, R25, R26,
R27.) The first clause is the case where no accepted code is known. That the trunks are decoded T0 first is the
model's choice (log entry 25). -/
def Obligations.SetProfileReplacesAClampedRecord : Prop :=
  (∀ (s : State) (n : ProfileNo) (p : List Byte) (pr : Profile), p.length = 49 → readProfile p = some pr →
    pr.codes.valid = true →
    (∀ t, (s.trunk t).role = .bothWay → (s.trunk t).profile = n → pr.codes.validBothWay = true) →
    (∀ t, (s.trunk t).role ≠ .unequipped → (s.trunk t).profile = n →
      (s.trunk t).state.inCall = false ∧ (s.trunk t).lcr.accepted = none) →
    ∃ (u : State) (q : Profile), exec (.setProfile (byte n.val :: p)) s =
        .next (u.sendReply 0x01 (if q = pr then .ok else .okClamped) []) ∧
      q.codes = pr.codes ∧ q.method = pr.method ∧ q.mode = pr.mode ∧ q.defaultOutcome = pr.defaultOutcome ∧
      q.categoryPolicy = pr.categoryPolicy ∧ q.holdCount = pr.holdCount ∧
      q.numbers = List.zipWith (fun r x => min r.high (max r.low x)) numericRows pr.numbers ∧
      (∀ t, u.trunk t = if (s.trunk t).role ≠ .unequipped ∧ (s.trunk t).profile = n then
          { s.trunk t with sentCode := sentCodeOf q.codes (s.trunk t).role (s.trunk t).state }
        else s.trunk t) ∧
      u = { s with profiles := s.profiles.set n q, trunks := u.trunks }) ∧
  ∀ (s v : State) (n : ProfileNo) (p : List Byte) (pr q : Profile), p.length = 49 → readProfile p = some pr →
    pr.codes.valid = true →
    (∀ t, (s.trunk t).role = .bothWay → (s.trunk t).profile = n → pr.codes.validBothWay = true) →
    (∀ t, (s.trunk t).role ≠ .unequipped → (s.trunk t).profile = n → (s.trunk t).state.inCall = false) →
    q = pr.withNumbers (List.zipWith (fun r x => min r.high (max r.low x)) numericRows pr.numbers) →
    v = { s with profiles := s.profiles.set n q, trunks := s.trunks.map fun r =>
      if r.role ≠ .unequipped ∧ r.profile = n then { r with sentCode := sentCodeOf q.codes r.role r.state } else r } →
    exec (.setProfile (byte n.val :: p)) s = .next (((List.finRange 32).foldl (fun (x : State) (t : TrunkNo) =>
      if (x.trunk t).role ≠ .unequipped ∧ (x.trunk t).profile = n ∧
          (x.trunk t).state ∈ [TrunkState.idle, .remoteBlocked, .failed] then x.decodeLine t else x) v).sendReply 0x01
      (if q = pr then .ok else .okClamped) [])

/-- SEIZE on an idle OUTGOING or BOTH-WAY trunk loads the send store, takes the call reference, opens an outgoing
record, counts the attempt, sends F-SEIZE, starts the ack timer and replies OK; with a relay part it links the inlet
and loads the inserted digits and the inlet's digits beyond the deleted ones; nothing else changes. (R43, R149, R160,
R161, R169, R176, R189.) -/
def Obligations.SeizeStartsAnOutgoingCall : Prop :=
  ∀ (s : State) (t : TrunkNo) (ref : CallRef) (k : Category) (e : Bool) (ds : List Digit) (p : Profile),
    p = s.profiles.get (s.trunk t).profile → (s.trunk t).role = .outgoing ∨ (s.trunk t).role = .bothWay →
    (s.trunk t).state = .idle →
    (ds.length ≤ 24 → exec (.seize ([byte t.val, ref.extractLsb' 8 8, ref.extractLsb' 0 8, byte k.code, flagByte e,
        byte ds.length] ++ ds.map (fun d => byte d.val) ++ [0])) s =
      .next (((s.mapTrunk t fun r => { r with
        send := { digits := ds, endFlag := e, pos := 1 }
        callRef := some ref
        record := some
          { ref := ref, trunk := t, direction := .outgoing, category := some k, seizeTime := s.tmb.counter
            ackTime := none, answerTime := none, answerCount := 0, digits := [], conversation := 0, occupancy := 0 }
        state := .outSeizing, sentCode := p.codes.fSeize, timer := some { kind := .ack, left := p.ackTimer } }).countFor t
          fun c => { c with outAttempts := min 4294967295 (c.outAttempts + 1) }).sendReply 0x10 .ok [])) ∧
    (∀ (inlet : TrunkNo) (d : Nat) (ins : List Digit), inlet ≠ t → d ≤ 24 → ins.length ≤ 4 →
      (s.trunk inlet).role ≠ .unequipped → (s.trunk inlet).state = .inSelecting → (s.trunk inlet).link = none →
      (∀ c, (s.trunk inlet).tone = some (.receiver c) → c.pending = none) → p.method ≠ .noRegister →
      ins.length + ((s.trunk inlet).received.digits.length - d) ≤ 24 → (s.trunk inlet).received.endReceived = false →
      exec (.seize ([byte t.val, ref.extractLsb' 8 8, ref.extractLsb' 0 8, byte k.code, 0, 0, 1, byte inlet.val, byte d,
        byte ins.length] ++ ins.map (fun d => byte d.val))) s =
      .next ((((s.mapTrunk t fun r => { r with
        send := { digits := ins ++ (s.trunk inlet).received.digits.drop d, endFlag := false, pos := 1 }
        link := some { peer := inlet, part := .outlet }
        callRef := some ref
        record := some
          { ref := ref, trunk := t, direction := .outgoing, category := some k, seizeTime := s.tmb.counter
            ackTime := none, answerTime := none, answerCount := 0, digits := [], conversation := 0, occupancy := 0 }
        state := .outSeizing, sentCode := p.codes.fSeize, timer := some { kind := .ack, left := p.ackTimer } }).mapTrunk
          inlet fun r => { r with
            link := some { peer := t, part := .inlet }
            linkRecord := some
              { delete := d, relayed := ((s.trunk inlet).received.digits.drop d).length, inletComplete := false } }).countFor t
          fun c => { c with outAttempts := min 4294967295 (c.outAttempts + 1) }).sendReply 0x10 .ok []))

/-- ADD-DIGITS appends its digits and sets the end flag; a decadic sender that waits starts the digit at once,
completes on the end flag alone, and in hold only drops its wait for added digits; a tone sender that waits sends its
next item at once; in the other phases the store alone changes. ACCEPT-DIGITS on an unlinked trunk without a tone
receiver completes the number or rejects it with CONGESTION or UNOBTAINABLE and takes the trunk out of the call wait
queue; a tone receiver without a pending outcome takes it by its phase, and one with a pending outcome refuses it with
BAD-STATE. (R46, R58, R76, R77, R85, R127, R139, R150, R151.) -/
def Obligations.HostAddsAndJudgesDigits : Prop :=
  ∀ (s : State) (t : TrunkNo) (p : Profile), p = s.profiles.get (s.trunk t).profile → (s.trunk t).role ≠ .unequipped →
    (s.trunk t).link = none →
    (∀ (e : Bool) (ds : List Digit), (s.trunk t).state ∈ [TrunkState.outSeizing, .outSelecting, .outWaitAnswer,
        .outAnswered, .outClearback, .outRejected] → (s.trunk t).send.endFlag = false →
      (s.trunk t).send.digits.length + ds.length ≤ 24 → (s.trunk t).decadic = none → (s.trunk t).tone = none →
      exec (.addDigits ([byte t.val, flagByte e, byte ds.length] ++ ds.map fun d => byte d.val)) s =
        .next ((s.mapTrunk t fun r => { r with
          send := { r.send with digits := r.send.digits ++ ds, endFlag := e } }).sendReply 0x11 .ok [])) ∧
    (∀ (d : Digit) (c : DecadicSender), (s.trunk t).state = .outSelecting → (s.trunk t).send.endFlag = false →
      (s.trunk t).send.digits.length < 24 → (s.trunk t).send.pos = (s.trunk t).send.digits.length + 1 →
      (s.trunk t).decadic = some (.sending c) → c.phase = .waiting → s.hwi.alignment ≠ .hold →
      exec (.addDigits [byte t.val, 0, 1, byte d.val]) s =
        .next ((s.mapTrunk t fun r => { r with
          send := { r.send with digits := r.send.digits ++ [d] }
          sentCode := p.codes.fClear
          decadic := some (.sending { c with
            phase := .breaking, breaks := if d.val = 0 then 10 else d.val, timer := some p.sendBreak }) }).sendReply
              0x11 .ok [])) ∧
    ((s.trunk t).state = .inSelecting → (s.trunk t).linkRecord = none → (s.trunk t).tone = none →
      (∃ u, exec (.acceptDigits [byte t.val, 0]) s = .next (u.sendReply 0x12 .ok []) ∧ s.completedIn u t ∧
        u.callQueue = s.callQueue.filter fun x => x.trunk != t) ∧
      (∃ u, exec (.acceptDigits [byte t.val, 1]) s = .next (u.sendReply 0x12 .ok []) ∧ s.rejectedIn u t .congestion ∧
        u.callQueue = s.callQueue.filter fun x => x.trunk != t) ∧
      (∃ u, exec (.acceptDigits [byte t.val, 2]) s = .next (u.sendReply 0x12 .ok []) ∧ s.rejectedIn u t .unobtainable ∧
        u.callQueue = s.callQueue.filter fun x => x.trunk != t)) ∧
    (∀ (e : Bool) (ds : List Digit) (c : ToneSender) (h : HeldUnit) (y : State), (s.trunk t).state = .outSelecting →
      (s.trunk t).send.endFlag = false → (s.trunk t).send.digits.length + ds.length ≤ 24 → (s.trunk t).decadic = none →
      (s.trunk t).tone = some (.sender c) → (s.trunk t).unit = some h →
      y = (s.mapTrunk t fun r => { r with send := { r.send with digits := r.send.digits ++ ds, endFlag := e } }) →
      exec (.addDigits ([byte t.val, flagByte e, byte ds.length] ++ ds.map fun d => byte d.val)) s =
        .next ((if c.phase = .waiting ∧ (ds ≠ [] ∨ e = true) then y.sendsNext t h.unit c else y).sendReply 0x11 .ok [])) ∧
    (∀ (e : Bool) (ds : List Digit) (c : DecadicSender) (y : State), (s.trunk t).state = .outSelecting →
      (s.trunk t).send.endFlag = false → (s.trunk t).send.digits.length + ds.length ≤ 24 →
      (s.trunk t).decadic = some (.sending c) →
      y = (s.mapTrunk t fun r => { r with send := { r.send with digits := r.send.digits ++ ds, endFlag := e } }) →
      (c.phase ≠ .waiting →
        exec (.addDigits ([byte t.val, flagByte e, byte ds.length] ++ ds.map fun d => byte d.val)) s =
          .next (y.sendReply 0x11 .ok [])) ∧
      (c.phase = .waiting → s.hwi.alignment = .hold → ds ≠ [] →
        exec (.addDigits ([byte t.val, flagByte e, byte ds.length] ++ ds.map fun d => byte d.val)) s =
          .next ((y.mapTrunk t fun r => { r with decadic := some (.sending { c with timer := none }) }).sendReply
            0x11 .ok [])) ∧
      (c.phase = .waiting → ds = [] → e = true →
        (s.trunk t).send.pos = (s.trunk t).send.digits.length + 1 →
        exec (.addDigits [byte t.val, 1, 0]) s = .next ((y.endsOut t .complete).sendReply 0x11 .ok []))) ∧
    ∀ (c : ToneReceiver) (h : HeldUnit) (code : Byte) (o : RegOutcome), (s.trunk t).state = .inSelecting →
      (s.trunk t).linkRecord = none → (s.trunk t).tone = some (.receiver c) → (s.trunk t).unit = some h →
      (code, o) ∈ [((0 : Byte), RegOutcome.complete), (1, .reject .congestion), (2, .reject .unobtainable)] →
      exec (.acceptDigits [byte t.val, code]) s = .next (if c.pending = none
        then (s.takesOutcome t h.unit c o).sendReply 0x12 .ok [] else s.sendReply 0x12 .badState [])

/-- MEASURE on a trunk that holds and waits for no unit clamps the blocks to 1 to 50 and takes the lowest-numbered
free unit outside hold; otherwise it joins the test wait queue for ten seconds while that has fewer than four
requests, and is refused with NO-ROOM beyond. (R90, R95, R96.) -/
def Obligations.MeasureIsGrantedOrQueued : Prop :=
  ∀ (s : State) (t : TrunkNo) (n : Byte) (blocks : Nat), blocks = min 50 (max 1 n.toNat) →
    (s.trunk t).role ≠ .unequipped → (s.trunk t).unit = none → (∀ u a d, (s.unit u).status ≠ .measuring t a d) →
    (∀ e ∈ s.callQueue, e.trunk ≠ t) → (∀ r ∈ s.testQueue, r.trunk ≠ t) →
    (∀ u : UnitNo, s.hwi.alignment ≠ .hold → (s.unit u).status = .free → (∀ v < u, (s.unit v).status ≠ .free) →
      exec (.measure [byte t.val, n]) s = .next ((s.mapUnit u fun _ => { status := .measuring t blocks 0 }).sendReply 0x20
        (if blocks = n.toNat then .ok else .okClamped) [0, byte u.val])) ∧
    (s.hwi.alignment = .hold ∨ (∀ u, (s.unit u).status ≠ .free) → s.testQueue.length < 4 →
      exec (.measure [byte t.val, n]) s =
        .next (({ s with testQueue := s.testQueue ++ [{ trunk := t, blocks := blocks, left := 10000 }] } : State).sendReply
          0x20 (if blocks = n.toNat then .ok else .okClamped) [1, byte (s.testQueue.length + 1)])) ∧
    (s.hwi.alignment = .hold ∨ (∀ u, (s.unit u).status ≠ .free) → 4 ≤ s.testQueue.length →
      exec (.measure [byte t.val, n]) s = .next (s.sendReply 0x20 .noRoom []))

/-- The reply carries the number that remains, the loss flags, the number delivered and the reports' bytes; the first
report left would not have fitted; the queue keeps the rest, the flags are cleared, ATTN is judged afresh, and nothing
else changes. Each report's bytes are its 8-byte header and the fields of its kind, given byte by byte. (R190, R191,
R193, R195, R197.) -/
def Obligations.PollDeliversFromTheHead : Prop :=
  (∀ s : State, ∃ (u : State) (k : Nat), k ≤ s.rqa.entries.length ∧
    (((s.rqa.entries.take k).map ReportEntry.bytes).flatten).length ≤ 240 ∧
    (∀ e rest, s.rqa.entries.drop k = e :: rest →
      240 < (((s.rqa.entries.take k).map ReportEntry.bytes).flatten).length + e.bytes.length) ∧
    exec (.poll []) s = .next (u.sendReply 0x30 .ok
      ([byte (s.rqa.entries.length - k),
        byte ((if s.rqa.sequenceLoss then 1 else 0) + (if s.rqa.conditionLoss then 2 else 0)), byte k] ++
        ((s.rqa.entries.take k).map ReportEntry.bytes).flatten)) ∧
    u = { s with rqa := { s.rqa with
      entries := s.rqa.entries.drop k, sequenceLoss := false, conditionLoss := false, attn := u.rqa.attn } } ∧
    (u.rqa.attn = true ↔ ∃ e rest, u.rqa.entries = e :: rest ∧
      (s.rqa.threshold ≤ rest.length + 1 ∨ 10 * s.rqa.holdTime ≤ e.age)) ∧
    (s.rqa.entries ≠ [] → (∀ e ∈ s.rqa.entries, e.bytes.length ≤ 240) → 0 < k)) ∧
  ∀ (e : ReportEntry) (two three four : Nat → List Byte) (opt : Option Nat → Byte) (ref : Option CallRef → List Byte)
    (cause : Cause → Nat) (category : Option Category → Byte) (digits : List Digit → List Byte),
    (∀ n, two n = [BitVec.ofNat 8 (n / 256), BitVec.ofNat 8 n]) →
    (∀ n, three n = [BitVec.ofNat 8 (n / 65536), BitVec.ofNat 8 (n / 256), BitVec.ofNat 8 n]) →
    (∀ n, four n = [BitVec.ofNat 8 (n / 16777216), BitVec.ofNat 8 (n / 65536), BitVec.ofNat 8 (n / 256), BitVec.ofNat 8 n]) →
    (∀ o, opt o = BitVec.ofNat 8 (o.getD 255)) → (∀ o, ref o = two ((o.map (·.toNat)).getD 65535)) →
    (∀ c, cause c = [Cause.normal, .ackTimeout, .releaseTimeout, .noAnswer, .clearbackTimeout, .noUnit, .digitTimeout,
      .interlockTimeout, .protocol, .congestion, .unobtainable, .holdLimit, .inletCleared, .overflow, .reset].idxOf c) →
    (∀ o, category o = opt (o.map ([Category.ordinary, .priority, .test].idxOf ·))) →
    (∀ ds, digits ds = byte ds.length :: ds.map fun d => byte d.val) →
    ∃ (kind : Byte) (fields : List Byte), e.bytes =
        [byte (8 + fields.length), kind, opt (e.trunk.map (·.val))] ++ four e.stamp.toNat ++ [byte e.repeats] ++ fields ∧
      (kind, fields) = match e.body with
        | .startup c revision address valid => (0x01, [byte ([ResetCause.power, .pin, .command].idxOf c), byte revision,
            address.setWidth 8, if valid then 1 else 0])
        | .seizedIn r => (0x02, ref r)
        | .acknowledged r => (0x03, ref r)
        | .registerEnd r o c => (0x04, ref r ++ [byte ([RegResult.complete, .congestion, .unobtainable].idxOf o),
            opt (c.map cause)])
        | .digitsComplete r k ds => (0x05, ref r ++ [category k] ++ digits ds)
        | .answer r => (0x06, ref r)
        | .clearBack r => (0x07, ref r)
        | .reAnswer r => (0x08, ref r)
        | .clearForward r => (0x09, ref r)
        | .released c => (0x0A, two c.record.ref.toNat ++ [byte ([Direction.outgoing, .incoming].idxOf c.record.direction),
            byte ((if c.record.category.isSome then 1 else 0) + (if c.record.ackTime.isSome then 2 else 0) +
              (if c.record.answerTime.isSome then 4 else 0)),
            byte ((c.record.category.map ([Category.ordinary, .priority, .test].idxOf ·)).getD 0)] ++
            four c.record.seizeTime.toNat ++ four (c.record.ackTime.getD 0).toNat ++
            four (c.record.answerTime.getD 0).toNat ++ [byte c.record.answerCount] ++ three c.record.conversation ++
            three c.record.occupancy ++ [byte (cause c.cause)] ++ digits c.record.digits)
        | .glare r => (0x0B, ref r)
        | .trunkFailed c r => (0x0C, [byte (cause c)] ++ ref r)
        | .remoteBlock => (0x0D, [])
        | .remoteUnblock => (0x0E, [])
        | .testResult st done f => (0x0F, [byte ([TestStatus.done, .abortedHold, .noUnit, .abortedSeized].idxOf st),
            byte done] ++ two ((f.map (·.rms)).getD 65535) ++ [opt (f.map (·.strongest))] ++
            two ((f.map (·.estimate)).getD 65535))
        | .holdStart c => (0x10, [byte ([HoldCause.alignment, .fsLoss].idxOf c)])
        | .holdEnd d => (0x11, four d.toNat)
        | .linkEnd outlet x o n => (0x12, [byte outlet.val, byte ([LinkEnding.outlet, .inlet, .overflow, .holdLimit].idxOf x),
            opt (o.map ([RegResult.complete, .congestion, .unobtainable].idxOf ·)), byte n])
        | .lineAnomaly c d => (0x40, [c.setWidth 8, byte ([AnomalyDetail.unexpectedCode, .digitError].idxOf d)])
        | .digitProgress k x ds => (0x41, [category k, if x then 1 else 0] ++ digits ds)
        | .poolCongestion n => (0x42, [byte n])

/-- With clear flag 0 the reply carries the group and its six counters in four bytes each and nothing changes; with 1
the same reply is given and the group's counters become 0; another length is refused with BAD-LENGTH and another value
with BAD-VALUE. (R177.) -/
def Obligations.ReadTrafficCarriesTheCounters : Prop :=
  ∀ (s : State) (g : GroupNo) (c : Traffic) (p : List Byte) (a b : Byte), c = s.traffic.get g →
    exec (.readTraffic [byte g.val, 0]) s = .next (s.sendReply 0x22 .ok
      ([byte g.val] ++ bytesOf 4 c.outAttempts ++ bytesOf 4 c.outAnswered ++ bytesOf 4 c.inSeizures ++
        bytesOf 4 c.inAnswered ++ bytesOf 4 c.failures ++ bytesOf 4 c.occupancy)) ∧
    exec (.readTraffic [byte g.val, 1]) s = .next (({ s with
        traffic := s.traffic.set g
          { outAttempts := 0, outAnswered := 0, inSeizures := 0, inAnswered := 0, failures := 0, occupancy := 0 } } :
        State).sendReply 0x22 .ok
      ([byte g.val] ++ bytesOf 4 c.outAttempts ++ bytesOf 4 c.outAnswered ++ bytesOf 4 c.inSeizures ++
        bytesOf 4 c.inAnswered ++ bytesOf 4 c.failures ++ bytesOf 4 c.occupancy)) ∧
    (p.length ≠ 2 → exec (.readTraffic p) s = .next (s.sendReply 0x22 .badLength [])) ∧
    (7 < a.toNat ∨ 1 < b.toNat → exec (.readTraffic [a, b]) s = .next (s.sendReply 0x22 .badValue []))

/-- READ-FAULT replies with the 8 bytes of the record and changes nothing; CLEAR-FAULT with the capture time and flag
of the held fault empties the record and releases FAULT unless the address is invalid, with anything else is refused
with BAD-STATE, and on an empty record is OK; wrong lengths and flag bytes are refused. (R199.) -/
def Obligations.FaultRecordIsReadAndClearedAsRead : Prop :=
  ∀ (s : State) (p : List Byte) (x : Byte),
    (s.fault.held = none → exec (.readFault []) s = .next (s.sendReply 0x31 .ok [0, 0, 0xFF, 0, 0, 0, 0, 0]) ∧
      ∀ (a b d e : Byte) (flag : Bool), exec (.clearFault [a, b, d, e, flagByte flag]) s =
        .next (s.sendReply 0x32 .ok [])) ∧
    (∀ f, s.fault.held = some f →
      exec (.readFault []) s = .next (s.sendReply 0x31 .ok ([1, byte f.kind.code,
        (match f.trunk with
          | none => 0xFF
          | some t => byte t.val)] ++ bytesOf 4 f.time.toNat ++ [if s.fault.further then 1 else 0])) ∧
      (∃ u : State, exec (.clearFault (bytesOf 4 f.time.toNat ++ [flagByte s.fault.further])) s =
          .next (u.sendReply 0x32 .ok []) ∧ u = { s with fault := { held := none, further := false } } ∧
        (u.faultPin = true ↔ s.clk.addressValid = false)) ∧
      ∀ flag : Bool, p.length = 4 → p ≠ bytesOf 4 f.time.toNat ∨ flag ≠ s.fault.further →
        exec (.clearFault (p ++ [flagByte flag])) s = .next (s.sendReply 0x32 .badState [])) ∧
    (p ≠ [] → exec (.readFault p) s = .next (s.sendReply 0x31 .badLength [])) ∧
    (p.length ≠ 5 → exec (.clearFault p) s = .next (s.sendReply 0x32 .badLength [])) ∧
    (p.length = 4 → 1 < x.toNat → exec (.clearFault (p ++ [x])) s = .next (s.sendReply 0x32 .badValue []))

/-- At a sample event a trunk's LTX sample is the generated code, silence in a tone register phase, or the SWX sample
(silence while FS is absent); a free unit is unchanged; an assigned unit expands its trunk's LRX sample, adds its
square to the block energy and steps the resonators of its status with the coefficients of R105; its generation count
rises, and at the 160th sample its block ends and a cleared one begins; nothing else changes. A generated code is the
compression of the send amplitude times the sum of the sines of the signal's two frequencies, rounded half away from
zero and limited to 8031. (R2, R4, R18, R19, R105, R106, R107, R108, R112, R116, R117.) LTX holds its last output (log
entry 13). The sine is a table S of sin(2 pi k / 160) scaled by 2^48 (log entry 11): the statement pins it by its
ends, its symmetries, its rise and the addition identity within its rounding. -/
def Obligations.SampleEventsPassSilenceOrGenerate : Prop :=
  (∀ (s : State) (lrx swx : Vector Byte 32), ∃ (u : State) (out : Vector Byte 32),
    exec (.sampleEvent lrx swx) s = .next u ∧ u = { s with ltx := some out, units := u.units } ∧
    (∀ t h g, (s.trunk t).unit = some h → (s.unit h.unit).generation = some g → out.get t = g.code) ∧
    (∀ t, (∀ h, (s.trunk t).unit = some h → (s.unit h.unit).generation = none) →
      out.get t = if ((s.trunk t).state = .outSelecting ∨ (s.trunk t).state = .inSelecting) ∧
          (s.profiles.get (s.trunk t).profile).method = .tone then 0
        else if s.tmb.fsPresent then swx.get t else 0) ∧
    (∀ n, (s.unit n).status = .free → u.unit n = s.unit n) ∧
    (∀ n t, (∃ role, (s.unit n).status = .signalling t role) ∨ (∃ a d, (s.unit n).status = .measuring t a d) →
      u.unit n = { (s.unit n).takeSample (if s.tmb.fsPresent then lrx.get t else 0) with
        generation := (s.unit n).generation.map fun g => { g with n := g.n + 1 } } ∧
      ((s.unit n).pos < 159 → (u.unit n).pos = (s.unit n).pos + 1 ∧ (u.unit n).ended = (s.unit n).ended) ∧
      ((s.unit n).pos = 159 → (u.unit n).pos = 0 ∧ (u.unit n).ended.isSome = true ∧ (u.unit n).energy = 0))) ∧
  coefficients.toList = [17121, 13719, 10126, 6393, 2571, -1286, 30274, 28590, 26510, 24062] ∧
  (∀ (s u : State) (lrx swx : Vector Byte 32) (n : UnitNo) (t : TrunkNo) (x : Int) (runs : Fin 10 → Prop)
    (bank : Vector Resonator 10) (energy : Nat), exec (.sampleEvent lrx swx) s = .next u →
    x = expand (if s.tmb.fsPresent then lrx.get t else 0) → energy = (s.unit n).energy + x.natAbs * x.natAbs →
    ((s.unit n).status = .signalling t .receiver ∧ (∀ k, runs k ↔ k.val < 6)) ∨
      ((s.unit n).status = .signalling t .sender ∧ (∀ k, runs k ↔ 6 ≤ k.val)) ∨
      ((∃ a d, (s.unit n).status = .measuring t a d) ∧ ∀ k, runs k) →
    (∀ k r, r = (s.unit n).bank.get k →
      (runs k → bank.get k = { s1 := x + (coefficients.get k * r.s1 + 8192).fdiv 16384 - r.s2, s2 := r.s1 }) ∧
      (¬ runs k → bank.get k = r)) →
    ((s.unit n).pos < 159 → u.unit n = { s.unit n with
      pos := (s.unit n).pos + 1, bank := bank, energy := energy
      generation := (s.unit n).generation.map fun g => { g with n := g.n + 1 } }) ∧
    ((s.unit n).pos = 159 → u.unit n = { s.unit n with
      pos := 0, bank := Vector.replicate 10 { s1 := 0, s2 := 0 }, energy := 0
      ended := some { bank := bank, energy := energy }
      generation := (s.unit n).generation.map fun g => { g with n := g.n + 1 } })) ∧
  ∃ S : Nat → Int, S 0 = 0 ∧ S 40 = 2 ^ 48 ∧ (∀ k, S (k + 80) = -S k) ∧ (∀ k ≤ 40, S (80 - k) = S k) ∧
    (∀ k < 40, S k < S (k + 1)) ∧
    (∀ j ≤ 40, ∀ k ≤ 40 - j, (S j * S (40 - k) + S (40 - j) * S k - 2 ^ 48 * S (j + k)).natAbs ≤ 2 ^ 49) ∧
    ∀ x ∈
      [(ToneSignal.forward .ft1, 26, 29), (.forward .ft2, 26, 32), (.forward .ft3, 26, 35), (.forward .ft4, 26, 38),
        (.forward .ft5, 26, 41), (.forward .ft6, 29, 32), (.forward .ft7, 29, 35), (.forward .ft8, 29, 38),
        (.forward .ft9, 29, 41), (.forward .ft10, 32, 35), (.forward .ft11, 32, 38), (.forward .ft12, 32, 41),
        (.forward .ft13, 35, 38), (.forward .ft14, 35, 41), (.forward .ft15, 38, 41), (.backward .bt1, 10, 13),
        (.backward .bt2, 10, 16), (.backward .bt3, 10, 19), (.backward .bt4, 13, 16), (.backward .bt5, 13, 19),
        (.backward .bt6, 16, 19)],
      ∀ (g : Generation) (y : Int), g.sig = x.1 → y = g.amplitude * (S (x.2.1 * g.n) + S (x.2.2 * g.n)) →
        g.code = compress g.value ∧ ∃ r : Int, 2 * (y - r * 2 ^ 48).natAbs ≤ 2 ^ 48 ∧
          (2 * (y - r * 2 ^ 48).natAbs = 2 ^ 48 → y.natAbs < (r * 2 ^ 48).natAbs) ∧
          g.value = max (-8031) (min 8031 r)

/-- If a state is sound and the step answers a next state, that state is sound: the report queue has at most 64
entries, no two condition reports of one kind and trunk, and ATTN as its condition has it; conversation never exceeds
occupancy; counters stay in range; every equipped trunk sends a code of its profile; profiles are valid and in range
and both-way trunks name both-way profiles; analysis entries are in range; the alignment counts fit their state. (R11,
R13, R23, R24, R25, R35, R152, R171, R173, R176, R194, R195.) -/
def Obligations.SoundnessIsKeptByEveryStep : Prop :=
  ∀ s u : State, s.sound → step s = .next u → u.sound

/-- The invariant that every step keeps holds right after reset. (R13, R29, R33, R152, R176, R196, R200.) -/
def Obligations.ResetStateIsSound : Prop :=
  State.reset.sound

/-- For any analysis table, group and digits: the first applicable entry that matches gives COMPLETE or UNDECIDED by
its length for FIXED, OPEN for OPEN and refusal for REFUSE; where none matches, a possible entry leaves the number
undecided, and otherwise the default outcome decides. (R155, R156.) -/
def Obligations.FirstMatchingEntryDecides : Prop :=
  ∀ (table : List AnalysisEntry) (g : GroupNo) (dflt : DefaultOutcome) (digits : List Digit)
    (applies matching possible : AnalysisEntry → Prop),
    (∀ e, applies e ↔ e.valid = true ∧ e.groups.getLsbD g.val = true) →
    (∀ e, matching e ↔ e.patternLength ≤ digits.length ∧
      ∀ (k : Fin 6) (d x : Digit), k.val < e.patternLength → e.pattern.get k = some x → digits[k.val]? = some d → x = d) →
    (∀ e, possible e ↔ digits.length < e.patternLength ∧
      ∀ (k : Fin 6) (d x : Digit), e.pattern.get k = some x → digits[k.val]? = some d → x = d) →
    (∀ (before after : List AnalysisEntry) (e : AnalysisEntry), table = before ++ e :: after →
      (∀ x ∈ before, ¬ (applies x ∧ matching x)) → applies e → matching e →
      (e.outcome = .fixed → e.length ≤ digits.length → analyse table g dflt digits = (.complete, some e.length)) ∧
      (e.outcome = .fixed → digits.length < e.length → analyse table g dflt digits = (.undecided, none)) ∧
      (e.outcome = .openNumber → analyse table g dflt digits = (.openNumber, none)) ∧
      (e.outcome = .refuse → analyse table g dflt digits = (.refused, none))) ∧
    ((∀ x ∈ table, ¬ (applies x ∧ matching x)) →
      ((∃ x ∈ table, applies x ∧ possible x) → analyse table g dflt digits = (.undecided, none)) ∧
      ((¬ ∃ x ∈ table, applies x ∧ possible x) → analyse table g dflt digits =
        (if dflt = .openNumber then .openNumber else .refused, none)))

/-- Expansion gives the magnitude (2m + 33) 2^e - 33 with its sign; compression of any value gives a code whose
expansion no other code comes nearer to, of the smaller magnitude where two lie equally near, never 0x80, and gives
back every expanded code except 0x80, which returns as 0x00. (R103, R104.) The expansion is R103's and the compression
R104's. -/
def Obligations.CompressionChoosesTheNearestCode : Prop :=
  (∀ code : Byte, expand code =
      let e := code.toNat % 128 / 16
      let m := code.toNat % 16
      (if code.getLsbD 7 then -1 else 1) * ((((2 * m + 33) * 2 ^ e - 33 : Nat)) : Int)) ∧
    (∀ code : Byte, compress (expand code) = if code = 0x80 then 0 else code) ∧
    (∀ v : Int, compress v ≠ 0x80) ∧
    ∀ (v : Int) (code : Byte), (expand (compress v) - v).natAbs ≤ (expand code - v).natAbs ∧
      ((expand (compress v) - v).natAbs = (expand code - v).natAbs →
        (expand (compress v)).natAbs ≤ (expand code).natAbs)

/-- Each of the 25 commands with any payload sends one reply under its type; where the status is neither OK nor
OK-CLAMPED the reply carries no data and the rest of the state is as it was. (00_scope.md, R184, R186.) That a refused
command changes nothing stands in 00_scope.md (Messages). -/
def Obligations.RefusedCommandsChangeNothing : Prop :=
  ∀ x ∈ messageTypes, ∀ (s : State) (p : List Byte), ∃ (v : State) (st : Status) (data : List Byte),
    exec (x.2 p) s = .next (v.sendReply x.1 st data) ∧ v.clk.address = s.clk.address ∧
    v.clk.overrun = s.clk.overrun ∧ (st ≠ .ok → st ≠ .okClamped → data = [] ∧ v = s)
end

