-- ==== Sys2Proof/Laws/State.lean ====
section
/-! SUPPORT. One lemma for each field and each update of the state, and what the accessors read after an update. -/

namespace Sys2Proof.Machine

/-! ### mapTrunk -/

@[simp] theorem State.mapTrunk_pending (s : State) (t : TrunkNo) (f : Trunk → Trunk) : (s.mapTrunk t f).pending = s.pending := rfl
@[simp] theorem State.mapTrunk_tmb (s : State) (t : TrunkNo) (f : Trunk → Trunk) : (s.mapTrunk t f).tmb = s.tmb := rfl
@[simp] theorem State.mapTrunk_hwi (s : State) (t : TrunkNo) (f : Trunk → Trunk) : (s.mapTrunk t f).hwi = s.hwi := rfl
@[simp] theorem State.mapTrunk_profiles (s : State) (t : TrunkNo) (f : Trunk → Trunk) : (s.mapTrunk t f).profiles = s.profiles := rfl
@[simp] theorem State.mapTrunk_units (s : State) (t : TrunkNo) (f : Trunk → Trunk) : (s.mapTrunk t f).units = s.units := rfl
@[simp] theorem State.mapTrunk_callQueue (s : State) (t : TrunkNo) (f : Trunk → Trunk) : (s.mapTrunk t f).callQueue = s.callQueue := rfl
@[simp] theorem State.mapTrunk_testQueue (s : State) (t : TrunkNo) (f : Trunk → Trunk) : (s.mapTrunk t f).testQueue = s.testQueue := rfl
@[simp] theorem State.mapTrunk_analysis (s : State) (t : TrunkNo) (f : Trunk → Trunk) : (s.mapTrunk t f).analysis = s.analysis := rfl
@[simp] theorem State.mapTrunk_sequence (s : State) (t : TrunkNo) (f : Trunk → Trunk) : (s.mapTrunk t f).sequence = s.sequence := rfl
@[simp] theorem State.mapTrunk_traffic (s : State) (t : TrunkNo) (f : Trunk → Trunk) : (s.mapTrunk t f).traffic = s.traffic := rfl
@[simp] theorem State.mapTrunk_clk (s : State) (t : TrunkNo) (f : Trunk → Trunk) : (s.mapTrunk t f).clk = s.clk := rfl
@[simp] theorem State.mapTrunk_rqa (s : State) (t : TrunkNo) (f : Trunk → Trunk) : (s.mapTrunk t f).rqa = s.rqa := rfl
@[simp] theorem State.mapTrunk_fault (s : State) (t : TrunkNo) (f : Trunk → Trunk) : (s.mapTrunk t f).fault = s.fault := rfl
@[simp] theorem State.mapTrunk_sgtx (s : State) (t : TrunkNo) (f : Trunk → Trunk) : (s.mapTrunk t f).sgtx = s.sgtx := rfl
@[simp] theorem State.mapTrunk_ltx (s : State) (t : TrunkNo) (f : Trunk → Trunk) : (s.mapTrunk t f).ltx = s.ltx := rfl

/-! ### mapUnit -/

@[simp] theorem State.mapUnit_pending (s : State) (u : UnitNo) (f : ToneUnit → ToneUnit) : (s.mapUnit u f).pending = s.pending := rfl
@[simp] theorem State.mapUnit_tmb (s : State) (u : UnitNo) (f : ToneUnit → ToneUnit) : (s.mapUnit u f).tmb = s.tmb := rfl
@[simp] theorem State.mapUnit_hwi (s : State) (u : UnitNo) (f : ToneUnit → ToneUnit) : (s.mapUnit u f).hwi = s.hwi := rfl
@[simp] theorem State.mapUnit_profiles (s : State) (u : UnitNo) (f : ToneUnit → ToneUnit) : (s.mapUnit u f).profiles = s.profiles := rfl
@[simp] theorem State.mapUnit_trunks (s : State) (u : UnitNo) (f : ToneUnit → ToneUnit) : (s.mapUnit u f).trunks = s.trunks := rfl
@[simp] theorem State.mapUnit_callQueue (s : State) (u : UnitNo) (f : ToneUnit → ToneUnit) : (s.mapUnit u f).callQueue = s.callQueue := rfl
@[simp] theorem State.mapUnit_testQueue (s : State) (u : UnitNo) (f : ToneUnit → ToneUnit) : (s.mapUnit u f).testQueue = s.testQueue := rfl
@[simp] theorem State.mapUnit_analysis (s : State) (u : UnitNo) (f : ToneUnit → ToneUnit) : (s.mapUnit u f).analysis = s.analysis := rfl
@[simp] theorem State.mapUnit_sequence (s : State) (u : UnitNo) (f : ToneUnit → ToneUnit) : (s.mapUnit u f).sequence = s.sequence := rfl
@[simp] theorem State.mapUnit_traffic (s : State) (u : UnitNo) (f : ToneUnit → ToneUnit) : (s.mapUnit u f).traffic = s.traffic := rfl
@[simp] theorem State.mapUnit_clk (s : State) (u : UnitNo) (f : ToneUnit → ToneUnit) : (s.mapUnit u f).clk = s.clk := rfl
@[simp] theorem State.mapUnit_rqa (s : State) (u : UnitNo) (f : ToneUnit → ToneUnit) : (s.mapUnit u f).rqa = s.rqa := rfl
@[simp] theorem State.mapUnit_fault (s : State) (u : UnitNo) (f : ToneUnit → ToneUnit) : (s.mapUnit u f).fault = s.fault := rfl
@[simp] theorem State.mapUnit_sgtx (s : State) (u : UnitNo) (f : ToneUnit → ToneUnit) : (s.mapUnit u f).sgtx = s.sgtx := rfl
@[simp] theorem State.mapUnit_ltx (s : State) (u : UnitNo) (f : ToneUnit → ToneUnit) : (s.mapUnit u f).ltx = s.ltx := rfl

/-! ### withReports -/

@[simp] theorem State.withReports_pending (s : State) (q : ReportQueue) : (s.withReports q).pending = s.pending := rfl
@[simp] theorem State.withReports_tmb (s : State) (q : ReportQueue) : (s.withReports q).tmb = s.tmb := rfl
@[simp] theorem State.withReports_hwi (s : State) (q : ReportQueue) : (s.withReports q).hwi = s.hwi := rfl
@[simp] theorem State.withReports_profiles (s : State) (q : ReportQueue) : (s.withReports q).profiles = s.profiles := rfl
@[simp] theorem State.withReports_trunks (s : State) (q : ReportQueue) : (s.withReports q).trunks = s.trunks := rfl
@[simp] theorem State.withReports_units (s : State) (q : ReportQueue) : (s.withReports q).units = s.units := rfl
@[simp] theorem State.withReports_callQueue (s : State) (q : ReportQueue) : (s.withReports q).callQueue = s.callQueue := rfl
@[simp] theorem State.withReports_testQueue (s : State) (q : ReportQueue) : (s.withReports q).testQueue = s.testQueue := rfl
@[simp] theorem State.withReports_analysis (s : State) (q : ReportQueue) : (s.withReports q).analysis = s.analysis := rfl
@[simp] theorem State.withReports_sequence (s : State) (q : ReportQueue) : (s.withReports q).sequence = s.sequence := rfl
@[simp] theorem State.withReports_traffic (s : State) (q : ReportQueue) : (s.withReports q).traffic = s.traffic := rfl
@[simp] theorem State.withReports_clk (s : State) (q : ReportQueue) : (s.withReports q).clk = s.clk := rfl
@[simp] theorem State.withReports_fault (s : State) (q : ReportQueue) : (s.withReports q).fault = s.fault := rfl
@[simp] theorem State.withReports_sgtx (s : State) (q : ReportQueue) : (s.withReports q).sgtx = s.sgtx := rfl
@[simp] theorem State.withReports_ltx (s : State) (q : ReportQueue) : (s.withReports q).ltx = s.ltx := rfl

/-! ### countFor -/

@[simp] theorem State.countFor_pending (s : State) (t : TrunkNo) (f : Traffic → Traffic) : (s.countFor t f).pending = s.pending := rfl
@[simp] theorem State.countFor_tmb (s : State) (t : TrunkNo) (f : Traffic → Traffic) : (s.countFor t f).tmb = s.tmb := rfl
@[simp] theorem State.countFor_hwi (s : State) (t : TrunkNo) (f : Traffic → Traffic) : (s.countFor t f).hwi = s.hwi := rfl
@[simp] theorem State.countFor_profiles (s : State) (t : TrunkNo) (f : Traffic → Traffic) : (s.countFor t f).profiles = s.profiles := rfl
@[simp] theorem State.countFor_trunks (s : State) (t : TrunkNo) (f : Traffic → Traffic) : (s.countFor t f).trunks = s.trunks := rfl
@[simp] theorem State.countFor_units (s : State) (t : TrunkNo) (f : Traffic → Traffic) : (s.countFor t f).units = s.units := rfl
@[simp] theorem State.countFor_callQueue (s : State) (t : TrunkNo) (f : Traffic → Traffic) : (s.countFor t f).callQueue = s.callQueue := rfl
@[simp] theorem State.countFor_testQueue (s : State) (t : TrunkNo) (f : Traffic → Traffic) : (s.countFor t f).testQueue = s.testQueue := rfl
@[simp] theorem State.countFor_analysis (s : State) (t : TrunkNo) (f : Traffic → Traffic) : (s.countFor t f).analysis = s.analysis := rfl
@[simp] theorem State.countFor_sequence (s : State) (t : TrunkNo) (f : Traffic → Traffic) : (s.countFor t f).sequence = s.sequence := rfl
@[simp] theorem State.countFor_clk (s : State) (t : TrunkNo) (f : Traffic → Traffic) : (s.countFor t f).clk = s.clk := rfl
@[simp] theorem State.countFor_rqa (s : State) (t : TrunkNo) (f : Traffic → Traffic) : (s.countFor t f).rqa = s.rqa := rfl
@[simp] theorem State.countFor_fault (s : State) (t : TrunkNo) (f : Traffic → Traffic) : (s.countFor t f).fault = s.fault := rfl
@[simp] theorem State.countFor_sgtx (s : State) (t : TrunkNo) (f : Traffic → Traffic) : (s.countFor t f).sgtx = s.sgtx := rfl
@[simp] theorem State.countFor_ltx (s : State) (t : TrunkNo) (f : Traffic → Traffic) : (s.countFor t f).ltx = s.ltx := rfl

/-! ### withCallQueue -/

@[simp] theorem State.withCallQueue_pending (s : State) (q : List CallWait) : (s.withCallQueue q).pending = s.pending := rfl
@[simp] theorem State.withCallQueue_tmb (s : State) (q : List CallWait) : (s.withCallQueue q).tmb = s.tmb := rfl
@[simp] theorem State.withCallQueue_hwi (s : State) (q : List CallWait) : (s.withCallQueue q).hwi = s.hwi := rfl
@[simp] theorem State.withCallQueue_profiles (s : State) (q : List CallWait) : (s.withCallQueue q).profiles = s.profiles := rfl
@[simp] theorem State.withCallQueue_trunks (s : State) (q : List CallWait) : (s.withCallQueue q).trunks = s.trunks := rfl
@[simp] theorem State.withCallQueue_units (s : State) (q : List CallWait) : (s.withCallQueue q).units = s.units := rfl
@[simp] theorem State.withCallQueue_testQueue (s : State) (q : List CallWait) : (s.withCallQueue q).testQueue = s.testQueue := rfl
@[simp] theorem State.withCallQueue_analysis (s : State) (q : List CallWait) : (s.withCallQueue q).analysis = s.analysis := rfl
@[simp] theorem State.withCallQueue_sequence (s : State) (q : List CallWait) : (s.withCallQueue q).sequence = s.sequence := rfl
@[simp] theorem State.withCallQueue_traffic (s : State) (q : List CallWait) : (s.withCallQueue q).traffic = s.traffic := rfl
@[simp] theorem State.withCallQueue_clk (s : State) (q : List CallWait) : (s.withCallQueue q).clk = s.clk := rfl
@[simp] theorem State.withCallQueue_rqa (s : State) (q : List CallWait) : (s.withCallQueue q).rqa = s.rqa := rfl
@[simp] theorem State.withCallQueue_fault (s : State) (q : List CallWait) : (s.withCallQueue q).fault = s.fault := rfl
@[simp] theorem State.withCallQueue_sgtx (s : State) (q : List CallWait) : (s.withCallQueue q).sgtx = s.sgtx := rfl
@[simp] theorem State.withCallQueue_ltx (s : State) (q : List CallWait) : (s.withCallQueue q).ltx = s.ltx := rfl

/-! ### withTestQueue -/

@[simp] theorem State.withTestQueue_pending (s : State) (q : List TestWait) : (s.withTestQueue q).pending = s.pending := rfl
@[simp] theorem State.withTestQueue_tmb (s : State) (q : List TestWait) : (s.withTestQueue q).tmb = s.tmb := rfl
@[simp] theorem State.withTestQueue_hwi (s : State) (q : List TestWait) : (s.withTestQueue q).hwi = s.hwi := rfl
@[simp] theorem State.withTestQueue_profiles (s : State) (q : List TestWait) : (s.withTestQueue q).profiles = s.profiles := rfl
@[simp] theorem State.withTestQueue_trunks (s : State) (q : List TestWait) : (s.withTestQueue q).trunks = s.trunks := rfl
@[simp] theorem State.withTestQueue_units (s : State) (q : List TestWait) : (s.withTestQueue q).units = s.units := rfl
@[simp] theorem State.withTestQueue_callQueue (s : State) (q : List TestWait) : (s.withTestQueue q).callQueue = s.callQueue := rfl
@[simp] theorem State.withTestQueue_analysis (s : State) (q : List TestWait) : (s.withTestQueue q).analysis = s.analysis := rfl
@[simp] theorem State.withTestQueue_sequence (s : State) (q : List TestWait) : (s.withTestQueue q).sequence = s.sequence := rfl
@[simp] theorem State.withTestQueue_traffic (s : State) (q : List TestWait) : (s.withTestQueue q).traffic = s.traffic := rfl
@[simp] theorem State.withTestQueue_clk (s : State) (q : List TestWait) : (s.withTestQueue q).clk = s.clk := rfl
@[simp] theorem State.withTestQueue_rqa (s : State) (q : List TestWait) : (s.withTestQueue q).rqa = s.rqa := rfl
@[simp] theorem State.withTestQueue_fault (s : State) (q : List TestWait) : (s.withTestQueue q).fault = s.fault := rfl
@[simp] theorem State.withTestQueue_sgtx (s : State) (q : List TestWait) : (s.withTestQueue q).sgtx = s.sgtx := rfl
@[simp] theorem State.withTestQueue_ltx (s : State) (q : List TestWait) : (s.withTestQueue q).ltx = s.ltx := rfl

/-! ### sendReply -/

@[simp] theorem State.sendReply_pending (s : State) (x : Byte) (st : Status) (d : List Byte) : (s.sendReply x st d).pending = s.pending := rfl
@[simp] theorem State.sendReply_tmb (s : State) (x : Byte) (st : Status) (d : List Byte) : (s.sendReply x st d).tmb = s.tmb := rfl
@[simp] theorem State.sendReply_hwi (s : State) (x : Byte) (st : Status) (d : List Byte) : (s.sendReply x st d).hwi = s.hwi := rfl
@[simp] theorem State.sendReply_profiles (s : State) (x : Byte) (st : Status) (d : List Byte) : (s.sendReply x st d).profiles = s.profiles := rfl
@[simp] theorem State.sendReply_trunks (s : State) (x : Byte) (st : Status) (d : List Byte) : (s.sendReply x st d).trunks = s.trunks := rfl
@[simp] theorem State.sendReply_units (s : State) (x : Byte) (st : Status) (d : List Byte) : (s.sendReply x st d).units = s.units := rfl
@[simp] theorem State.sendReply_callQueue (s : State) (x : Byte) (st : Status) (d : List Byte) : (s.sendReply x st d).callQueue = s.callQueue := rfl
@[simp] theorem State.sendReply_testQueue (s : State) (x : Byte) (st : Status) (d : List Byte) : (s.sendReply x st d).testQueue = s.testQueue := rfl
@[simp] theorem State.sendReply_analysis (s : State) (x : Byte) (st : Status) (d : List Byte) : (s.sendReply x st d).analysis = s.analysis := rfl
@[simp] theorem State.sendReply_sequence (s : State) (x : Byte) (st : Status) (d : List Byte) : (s.sendReply x st d).sequence = s.sequence := rfl
@[simp] theorem State.sendReply_traffic (s : State) (x : Byte) (st : Status) (d : List Byte) : (s.sendReply x st d).traffic = s.traffic := rfl
@[simp] theorem State.sendReply_rqa (s : State) (x : Byte) (st : Status) (d : List Byte) : (s.sendReply x st d).rqa = s.rqa := rfl
@[simp] theorem State.sendReply_fault (s : State) (x : Byte) (st : Status) (d : List Byte) : (s.sendReply x st d).fault = s.fault := rfl
@[simp] theorem State.sendReply_sgtx (s : State) (x : Byte) (st : Status) (d : List Byte) : (s.sendReply x st d).sgtx = s.sgtx := rfl
@[simp] theorem State.sendReply_ltx (s : State) (x : Byte) (st : Status) (d : List Byte) : (s.sendReply x st d).ltx = s.ltx := rfl

/-! ### withPending -/

@[simp] theorem State.withPending_tmb (s : State) (q : List Instr) : (s.withPending q).tmb = s.tmb := rfl
@[simp] theorem State.withPending_hwi (s : State) (q : List Instr) : (s.withPending q).hwi = s.hwi := rfl
@[simp] theorem State.withPending_profiles (s : State) (q : List Instr) : (s.withPending q).profiles = s.profiles := rfl
@[simp] theorem State.withPending_trunks (s : State) (q : List Instr) : (s.withPending q).trunks = s.trunks := rfl
@[simp] theorem State.withPending_units (s : State) (q : List Instr) : (s.withPending q).units = s.units := rfl
@[simp] theorem State.withPending_callQueue (s : State) (q : List Instr) : (s.withPending q).callQueue = s.callQueue := rfl
@[simp] theorem State.withPending_testQueue (s : State) (q : List Instr) : (s.withPending q).testQueue = s.testQueue := rfl
@[simp] theorem State.withPending_analysis (s : State) (q : List Instr) : (s.withPending q).analysis = s.analysis := rfl
@[simp] theorem State.withPending_sequence (s : State) (q : List Instr) : (s.withPending q).sequence = s.sequence := rfl
@[simp] theorem State.withPending_traffic (s : State) (q : List Instr) : (s.withPending q).traffic = s.traffic := rfl
@[simp] theorem State.withPending_clk (s : State) (q : List Instr) : (s.withPending q).clk = s.clk := rfl
@[simp] theorem State.withPending_rqa (s : State) (q : List Instr) : (s.withPending q).rqa = s.rqa := rfl
@[simp] theorem State.withPending_fault (s : State) (q : List Instr) : (s.withPending q).fault = s.fault := rfl
@[simp] theorem State.withPending_sgtx (s : State) (q : List Instr) : (s.withPending q).sgtx = s.sgtx := rfl
@[simp] theorem State.withPending_ltx (s : State) (q : List Instr) : (s.withPending q).ltx = s.ltx := rfl

/-! ### releaseCommand -/

@[simp] theorem State.releaseCommand_pending (s : State) : (s.releaseCommand).pending = s.pending := rfl
@[simp] theorem State.releaseCommand_tmb (s : State) : (s.releaseCommand).tmb = s.tmb := rfl
@[simp] theorem State.releaseCommand_hwi (s : State) : (s.releaseCommand).hwi = s.hwi := rfl
@[simp] theorem State.releaseCommand_profiles (s : State) : (s.releaseCommand).profiles = s.profiles := rfl
@[simp] theorem State.releaseCommand_trunks (s : State) : (s.releaseCommand).trunks = s.trunks := rfl
@[simp] theorem State.releaseCommand_units (s : State) : (s.releaseCommand).units = s.units := rfl
@[simp] theorem State.releaseCommand_callQueue (s : State) : (s.releaseCommand).callQueue = s.callQueue := rfl
@[simp] theorem State.releaseCommand_testQueue (s : State) : (s.releaseCommand).testQueue = s.testQueue := rfl
@[simp] theorem State.releaseCommand_analysis (s : State) : (s.releaseCommand).analysis = s.analysis := rfl
@[simp] theorem State.releaseCommand_sequence (s : State) : (s.releaseCommand).sequence = s.sequence := rfl
@[simp] theorem State.releaseCommand_traffic (s : State) : (s.releaseCommand).traffic = s.traffic := rfl
@[simp] theorem State.releaseCommand_rqa (s : State) : (s.releaseCommand).rqa = s.rqa := rfl
@[simp] theorem State.releaseCommand_fault (s : State) : (s.releaseCommand).fault = s.fault := rfl
@[simp] theorem State.releaseCommand_sgtx (s : State) : (s.releaseCommand).sgtx = s.sgtx := rfl
@[simp] theorem State.releaseCommand_ltx (s : State) : (s.releaseCommand).ltx = s.ltx := rfl

/-! ### capture and submit -/

@[simp] theorem State.capture_pending (s : State) (k : FaultKind) (t : Option TrunkNo) : (s.capture k t).pending = s.pending := by
  unfold State.capture; split <;> rfl
@[simp] theorem State.capture_tmb (s : State) (k : FaultKind) (t : Option TrunkNo) : (s.capture k t).tmb = s.tmb := by
  unfold State.capture; split <;> rfl
@[simp] theorem State.capture_hwi (s : State) (k : FaultKind) (t : Option TrunkNo) : (s.capture k t).hwi = s.hwi := by
  unfold State.capture; split <;> rfl
@[simp] theorem State.capture_profiles (s : State) (k : FaultKind) (t : Option TrunkNo) : (s.capture k t).profiles = s.profiles := by
  unfold State.capture; split <;> rfl
@[simp] theorem State.capture_trunks (s : State) (k : FaultKind) (t : Option TrunkNo) : (s.capture k t).trunks = s.trunks := by
  unfold State.capture; split <;> rfl
@[simp] theorem State.capture_units (s : State) (k : FaultKind) (t : Option TrunkNo) : (s.capture k t).units = s.units := by
  unfold State.capture; split <;> rfl
@[simp] theorem State.capture_callQueue (s : State) (k : FaultKind) (t : Option TrunkNo) : (s.capture k t).callQueue = s.callQueue := by
  unfold State.capture; split <;> rfl
@[simp] theorem State.capture_testQueue (s : State) (k : FaultKind) (t : Option TrunkNo) : (s.capture k t).testQueue = s.testQueue := by
  unfold State.capture; split <;> rfl
@[simp] theorem State.capture_analysis (s : State) (k : FaultKind) (t : Option TrunkNo) : (s.capture k t).analysis = s.analysis := by
  unfold State.capture; split <;> rfl
@[simp] theorem State.capture_sequence (s : State) (k : FaultKind) (t : Option TrunkNo) : (s.capture k t).sequence = s.sequence := by
  unfold State.capture; split <;> rfl
@[simp] theorem State.capture_traffic (s : State) (k : FaultKind) (t : Option TrunkNo) : (s.capture k t).traffic = s.traffic := by
  unfold State.capture; split <;> rfl
@[simp] theorem State.capture_clk (s : State) (k : FaultKind) (t : Option TrunkNo) : (s.capture k t).clk = s.clk := by
  unfold State.capture; split <;> rfl
@[simp] theorem State.capture_rqa (s : State) (k : FaultKind) (t : Option TrunkNo) : (s.capture k t).rqa = s.rqa := by
  unfold State.capture; split <;> rfl
@[simp] theorem State.capture_sgtx (s : State) (k : FaultKind) (t : Option TrunkNo) : (s.capture k t).sgtx = s.sgtx := by
  unfold State.capture; split <;> rfl
@[simp] theorem State.capture_ltx (s : State) (k : FaultKind) (t : Option TrunkNo) : (s.capture k t).ltx = s.ltx := by
  unfold State.capture; split <;> rfl
@[simp] theorem State.submit_pending (s : State) (t : Option TrunkNo) (b : ReportBody) : (s.submit t b).pending = s.pending := by
  unfold State.submit; split_ifs <;> simp
@[simp] theorem State.submit_tmb (s : State) (t : Option TrunkNo) (b : ReportBody) : (s.submit t b).tmb = s.tmb := by
  unfold State.submit; split_ifs <;> simp
@[simp] theorem State.submit_hwi (s : State) (t : Option TrunkNo) (b : ReportBody) : (s.submit t b).hwi = s.hwi := by
  unfold State.submit; split_ifs <;> simp
@[simp] theorem State.submit_profiles (s : State) (t : Option TrunkNo) (b : ReportBody) : (s.submit t b).profiles = s.profiles := by
  unfold State.submit; split_ifs <;> simp
@[simp] theorem State.submit_trunks (s : State) (t : Option TrunkNo) (b : ReportBody) : (s.submit t b).trunks = s.trunks := by
  unfold State.submit; split_ifs <;> simp
@[simp] theorem State.submit_units (s : State) (t : Option TrunkNo) (b : ReportBody) : (s.submit t b).units = s.units := by
  unfold State.submit; split_ifs <;> simp
@[simp] theorem State.submit_callQueue (s : State) (t : Option TrunkNo) (b : ReportBody) : (s.submit t b).callQueue = s.callQueue := by
  unfold State.submit; split_ifs <;> simp
@[simp] theorem State.submit_testQueue (s : State) (t : Option TrunkNo) (b : ReportBody) : (s.submit t b).testQueue = s.testQueue := by
  unfold State.submit; split_ifs <;> simp
@[simp] theorem State.submit_analysis (s : State) (t : Option TrunkNo) (b : ReportBody) : (s.submit t b).analysis = s.analysis := by
  unfold State.submit; split_ifs <;> simp
@[simp] theorem State.submit_sequence (s : State) (t : Option TrunkNo) (b : ReportBody) : (s.submit t b).sequence = s.sequence := by
  unfold State.submit; split_ifs <;> simp
@[simp] theorem State.submit_traffic (s : State) (t : Option TrunkNo) (b : ReportBody) : (s.submit t b).traffic = s.traffic := by
  unfold State.submit; split_ifs <;> simp
@[simp] theorem State.submit_clk (s : State) (t : Option TrunkNo) (b : ReportBody) : (s.submit t b).clk = s.clk := by
  unfold State.submit; split_ifs <;> simp
@[simp] theorem State.submit_sgtx (s : State) (t : Option TrunkNo) (b : ReportBody) : (s.submit t b).sgtx = s.sgtx := by
  unfold State.submit; split_ifs <;> simp
@[simp] theorem State.submit_ltx (s : State) (t : Option TrunkNo) (b : ReportBody) : (s.submit t b).ltx = s.ltx := by
  unfold State.submit; split_ifs <;> simp

/-! ### Accessors -/

theorem get_set {α : Type} {n : Nat} (v : Vector α n) (i j : Fin n) (x : α) :
    (v.set i x).get j = if i = j then x else v.get j := by
  simp only [Vector.get_eq_getElem, Vector.getElem_set, Fin.ext_iff]

theorem get_map {α β : Type} {n : Nat} (v : Vector α n) (f : α → β) (i : Fin n) : (v.map f).get i = f (v.get i) := by
  simp only [Vector.get_eq_getElem, Vector.getElem_map]

theorem get_replicate {α : Type} {n : Nat} (x : α) (i : Fin n) : (Vector.replicate n x).get i = x := by
  simp only [Vector.get_eq_getElem, Vector.getElem_replicate]

@[simp] theorem State.mapTrunk_trunk (s : State) (t : TrunkNo) (f : Trunk → Trunk) :
    (s.mapTrunk t f).trunk t = f (s.trunk t) := by simp [State.trunk, State.mapTrunk, get_set]

theorem State.mapTrunk_trunk_ne (s : State) {t u : TrunkNo} (f : Trunk → Trunk) (h : u ≠ t) :
    (s.mapTrunk t f).trunk u = s.trunk u := by
  simp [State.trunk, State.mapTrunk, get_set, Ne.symm h]

theorem State.trunk_congr {s s' : State} (h : s'.trunks = s.trunks) (t : TrunkNo) : s'.trunk t = s.trunk t := by
  simp [State.trunk, h]

theorem State.unit_congr {s s' : State} (h : s'.units = s.units) (u : UnitNo) : s'.unit u = s.unit u := by
  simp [State.unit, h]

@[simp] theorem State.mapUnit_unit (s : State) (u : UnitNo) (f : ToneUnit → ToneUnit) :
    (s.mapUnit u f).unit u = f (s.unit u) := by simp [State.unit, State.mapUnit, get_set]

theorem State.mapUnit_unit_ne (s : State) {u v : UnitNo} (f : ToneUnit → ToneUnit) (h : v ≠ u) :
    (s.mapUnit u f).unit v = s.unit v := by
  simp [State.unit, State.mapUnit, get_set, Ne.symm h]

/-- A trunk's record after an update, at every trunk. -/
theorem State.mapTrunk_trunk_at (s : State) (t u : TrunkNo) (f : Trunk → Trunk) :
    (s.mapTrunk t f).trunk u = if u = t then f (s.trunk t) else s.trunk u := by
  split_ifs with h
  · rw [h, State.mapTrunk_trunk]
  · exact State.mapTrunk_trunk_ne _ _ h

/-- An update that keeps the trunk's profile number keeps the profile of every trunk. -/
theorem State.mapTrunk_profileOf (s : State) (t u : TrunkNo) (f : Trunk → Trunk)
    (h : (f (s.trunk t)).profile = (s.trunk t).profile) : (s.mapTrunk t f).profileOf u = s.profileOf u := by
  simp only [State.profileOf, State.mapTrunk_trunk_at, State.mapTrunk_profiles]
  split_ifs with hu
  · rw [h, hu]
  · rfl

theorem State.mapTrunk_congr (s : State) (t : TrunkNo) {f g : Trunk → Trunk} (h : f (s.trunk t) = g (s.trunk t)) :
    s.mapTrunk t f = s.mapTrunk t g := by simp [State.mapTrunk, h]

theorem State.mapTrunk_mapTrunk (s : State) (t : TrunkNo) (f g : Trunk → Trunk) :
    (s.mapTrunk t f).mapTrunk t g = s.mapTrunk t fun r => g (f r) := by
  simp [State.mapTrunk, State.trunk, get_set]

@[simp] theorem State.mapTrunk_unit (s : State) (t : TrunkNo) (f : Trunk → Trunk) (v : UnitNo) : (s.mapTrunk t f).unit v = s.unit v := rfl
@[simp] theorem State.mapUnit_trunk (s : State) (u : UnitNo) (f : ToneUnit → ToneUnit) (v : TrunkNo) : (s.mapUnit u f).trunk v = s.trunk v := rfl
@[simp] theorem State.mapUnit_profileOf (s : State) (u : UnitNo) (f : ToneUnit → ToneUnit) (v : TrunkNo) : (s.mapUnit u f).profileOf v = s.profileOf v := rfl
@[simp] theorem State.withReports_trunk (s : State) (q : ReportQueue) (v : TrunkNo) : (s.withReports q).trunk v = s.trunk v := rfl
@[simp] theorem State.withReports_profileOf (s : State) (q : ReportQueue) (v : TrunkNo) : (s.withReports q).profileOf v = s.profileOf v := rfl
@[simp] theorem State.withReports_unit (s : State) (q : ReportQueue) (v : UnitNo) : (s.withReports q).unit v = s.unit v := rfl
@[simp] theorem State.countFor_trunk (s : State) (t : TrunkNo) (f : Traffic → Traffic) (v : TrunkNo) : (s.countFor t f).trunk v = s.trunk v := rfl
@[simp] theorem State.countFor_profileOf (s : State) (t : TrunkNo) (f : Traffic → Traffic) (v : TrunkNo) : (s.countFor t f).profileOf v = s.profileOf v := rfl
@[simp] theorem State.countFor_unit (s : State) (t : TrunkNo) (f : Traffic → Traffic) (v : UnitNo) : (s.countFor t f).unit v = s.unit v := rfl
@[simp] theorem State.withCallQueue_trunk (s : State) (q : List CallWait) (v : TrunkNo) : (s.withCallQueue q).trunk v = s.trunk v := rfl
@[simp] theorem State.withCallQueue_profileOf (s : State) (q : List CallWait) (v : TrunkNo) : (s.withCallQueue q).profileOf v = s.profileOf v := rfl
@[simp] theorem State.withCallQueue_unit (s : State) (q : List CallWait) (v : UnitNo) : (s.withCallQueue q).unit v = s.unit v := rfl
@[simp] theorem State.withTestQueue_trunk (s : State) (q : List TestWait) (v : TrunkNo) : (s.withTestQueue q).trunk v = s.trunk v := rfl
@[simp] theorem State.withTestQueue_profileOf (s : State) (q : List TestWait) (v : TrunkNo) : (s.withTestQueue q).profileOf v = s.profileOf v := rfl
@[simp] theorem State.withTestQueue_unit (s : State) (q : List TestWait) (v : UnitNo) : (s.withTestQueue q).unit v = s.unit v := rfl
@[simp] theorem State.sendReply_trunk (s : State) (x : Byte) (st : Status) (d : List Byte) (v : TrunkNo) : (s.sendReply x st d).trunk v = s.trunk v := rfl
@[simp] theorem State.sendReply_profileOf (s : State) (x : Byte) (st : Status) (d : List Byte) (v : TrunkNo) : (s.sendReply x st d).profileOf v = s.profileOf v := rfl
@[simp] theorem State.sendReply_unit (s : State) (x : Byte) (st : Status) (d : List Byte) (v : UnitNo) : (s.sendReply x st d).unit v = s.unit v := rfl
@[simp] theorem State.withPending_trunk (s : State) (q : List Instr) (v : TrunkNo) : (s.withPending q).trunk v = s.trunk v := rfl
@[simp] theorem State.withPending_profileOf (s : State) (q : List Instr) (v : TrunkNo) : (s.withPending q).profileOf v = s.profileOf v := rfl
@[simp] theorem State.withPending_unit (s : State) (q : List Instr) (v : UnitNo) : (s.withPending q).unit v = s.unit v := rfl
@[simp] theorem State.releaseCommand_trunk (s : State) (v : TrunkNo) : (s.releaseCommand ).trunk v = s.trunk v := rfl
@[simp] theorem State.releaseCommand_profileOf (s : State) (v : TrunkNo) : (s.releaseCommand ).profileOf v = s.profileOf v := rfl
@[simp] theorem State.releaseCommand_unit (s : State) (v : UnitNo) : (s.releaseCommand ).unit v = s.unit v := rfl
@[simp] theorem State.capture_trunk (s : State) (k : FaultKind) (t : Option TrunkNo) (v : TrunkNo) :
    (s.capture k t).trunk v = s.trunk v := State.trunk_congr (by simp) v
@[simp] theorem State.submit_trunk (s : State) (t : Option TrunkNo) (b : ReportBody) (v : TrunkNo) :
    (s.submit t b).trunk v = s.trunk v := State.trunk_congr (by simp) v
@[simp] theorem State.capture_unit (s : State) (k : FaultKind) (t : Option TrunkNo) (v : UnitNo) :
    (s.capture k t).unit v = s.unit v := State.unit_congr (by simp) v
@[simp] theorem State.submit_unit (s : State) (t : Option TrunkNo) (b : ReportBody) (v : UnitNo) :
    (s.submit t b).unit v = s.unit v := State.unit_congr (by simp) v
@[simp] theorem State.submit_profileOf (s : State) (t : Option TrunkNo) (b : ReportBody) (v : TrunkNo) :
    (s.submit t b).profileOf v = s.profileOf v := by simp [State.profileOf]
@[simp] theorem State.capture_profileOf (s : State) (k : FaultKind) (t : Option TrunkNo) (v : TrunkNo) :
    (s.capture k t).profileOf v = s.profileOf v := by simp [State.profileOf]

/-! ### inHold -/

theorem State.inHold_congr {s s' : State} (h : s'.hwi = s.hwi) : s'.inHold = s.inHold := by simp [State.inHold, h]

end Sys2Proof.Machine
end

