-- ==== Sys2Proof/Laws/Inner.lean ====
section
/-! SUPPORT. What the trunk supervisor, the engines, the pool and the relay links can do to the state, said once:
`Inner s s'`. Every shared operation of these blocks is an inner one (the lemmas below), and so keeps the unit's
settings, its time base, its alignment and its link, lets no report and no fault capture go, and keeps the records and
counters sound. -/

namespace Sys2Proof.Machine

/-! ### The relation -/

/-- What a trunk keeps: its configuration, its accepted code and its candidate; and its soundness. -/
structure Trunk.Inner (profiles : Vector Profile 4) (r r' : Trunk) : Prop where
  kept : r'.role = r.role ∧ r'.profile = r.profile ∧ r'.group = r.group ∧ r'.glare = r.glare ∧
    r'.localBlock = r.localBlock ∧ r'.lcr.accepted = r.lcr.accepted ∧ r'.lcr.candidate = r.lcr.candidate
  sound : r.sound profiles → r'.sound profiles

/-- The kind and the trunk of an entry. -/
def ReportEntry.key (e : ReportEntry) : Nat × Option TrunkNo := (e.body.kindCode, e.trunk)

/-- What the report queue keeps: its settings, its entries in their places, every sequenced entry as it is, its loss
flags, and its soundness. -/
structure ReportQueue.Inner (q q' : ReportQueue) : Prop where
  settings : q'.threshold = q.threshold ∧ q'.holdTime = q.holdTime
  order : q.entries.map ReportEntry.key <+: q'.entries.map ReportEntry.key
  kept : ∀ e ∈ q.entries, e.body.isCondition = false → e ∈ q'.entries
  losses : (q.sequenceLoss = true → q'.sequenceLoss = true) ∧ (q.conditionLoss = true → q'.conditionLoss = true)
  sound : q.sound → q'.sound

/-- What the fault capture record keeps. -/
structure FaultRecord.Inner (r r' : FaultRecord) : Prop where
  held : ∀ f, r.held = some f → r'.held = some f
  further : r.further = true → r.held.isSome = true → r'.further = true

/-- What the traffic counters keep. -/
def Traffic.Inner (c c' : Traffic) : Prop :=
  c.sound → c'.sound ∧ c.outAttempts ≤ c'.outAttempts ∧ c.outAnswered ≤ c'.outAnswered ∧
    c.inSeizures ≤ c'.inSeizures ∧ c.inAnswered ≤ c'.inAnswered ∧ c.failures ≤ c'.failures ∧ c.occupancy ≤ c'.occupancy

/-- `s'` comes from `s` by the work of the trunk supervisor, the engines, the pool and the relay links. -/
structure Inner (s s' : State) : Prop where
  pending : s'.pending = s.pending
  tmb : s'.tmb = s.tmb
  hwi : s'.hwi = s.hwi
  profiles : s'.profiles = s.profiles
  analysis : s'.analysis = s.analysis
  clk : s'.clk = s.clk
  sgtx : s'.sgtx = s.sgtx
  ltx : s'.ltx = s.ltx
  trunks : ∀ t, (s.trunk t).Inner s.profiles (s'.trunk t)
  reports : s.rqa.Inner s'.rqa
  fault : s.fault.Inner s'.fault
  traffic : ∀ g, (s.traffic.get g).Inner (s'.traffic.get g)

theorem Trunk.Inner.refl (p : Vector Profile 4) (r : Trunk) : r.Inner p r :=
  ⟨⟨rfl, rfl, rfl, rfl, rfl, rfl, rfl⟩, id⟩

theorem Trunk.Inner.trans {p : Vector Profile 4} {a b c : Trunk} (h : a.Inner p b) (k : b.Inner p c) : a.Inner p c := by
  obtain ⟨⟨h1, h2, h3, h4, h5, h6, h7⟩, hs⟩ := h
  obtain ⟨⟨k1, k2, k3, k4, k5, k6, k7⟩, ks⟩ := k
  exact ⟨⟨k1.trans h1, k2.trans h2, k3.trans h3, k4.trans h4, k5.trans h5, k6.trans h6, k7.trans h7⟩, ks ∘ hs⟩

theorem ReportQueue.Inner.refl (q : ReportQueue) : q.Inner q := ⟨⟨rfl, rfl⟩, List.prefix_rfl, fun _ h _ => h, ⟨id, id⟩, id⟩

theorem ReportQueue.Inner.trans {a b c : ReportQueue} (h : a.Inner b) (k : b.Inner c) : a.Inner c :=
  ⟨⟨k.settings.1.trans h.settings.1, k.settings.2.trans h.settings.2⟩, h.order.trans k.order,
    fun e m c => k.kept e (h.kept e m c) c, ⟨k.losses.1 ∘ h.losses.1, k.losses.2 ∘ h.losses.2⟩, k.sound ∘ h.sound⟩

theorem FaultRecord.Inner.refl (r : FaultRecord) : r.Inner r := ⟨fun _ => id, fun h _ => h⟩

theorem FaultRecord.Inner.trans {a b c : FaultRecord} (h : a.Inner b) (k : b.Inner c) : a.Inner c :=
  ⟨fun f e => k.held f (h.held f e), fun e he => by
    obtain ⟨f, hf⟩ := Option.isSome_iff_exists.mp he
    exact k.further (h.further e he) (by simp [h.held f hf])⟩

theorem Traffic.Inner.refl (c : Traffic) : c.Inner c := fun h => ⟨h, by simp⟩

theorem Traffic.Inner.trans {a b c : Traffic} (h : a.Inner b) (k : b.Inner c) : a.Inner c := fun e => by
  obtain ⟨hs, h1, h2, h3, h4, h5, h6⟩ := h e
  obtain ⟨ks, k1, k2, k3, k4, k5, k6⟩ := k hs
  exact ⟨ks, by omega, by omega, by omega, by omega, by omega, by omega⟩

theorem Inner.refl (s : State) : Inner s s :=
  ⟨rfl, rfl, rfl, rfl, rfl, rfl, rfl, rfl, fun _ => .refl _ _, .refl _, .refl _, fun _ => .refl _⟩

theorem Inner.trans {a b c : State} (h : Inner a b) (k : Inner b c) : Inner a c where
  pending := k.pending.trans h.pending
  tmb := k.tmb.trans h.tmb
  hwi := k.hwi.trans h.hwi
  profiles := k.profiles.trans h.profiles
  analysis := k.analysis.trans h.analysis
  clk := k.clk.trans h.clk
  sgtx := k.sgtx.trans h.sgtx
  ltx := k.ltx.trans h.ltx
  trunks t := (h.trunks t).trans (h.profiles ▸ k.trunks t)
  reports := h.reports.trans k.reports
  fault := h.fault.trans k.fault
  traffic g := (h.traffic g).trans (k.traffic g)

/-! ### Trunk updates -/

theorem State.mapTrunk_inner (s : State) (t : TrunkNo) (f : Trunk → Trunk)
    (hf : (s.trunk t).Inner s.profiles (f (s.trunk t))) : Inner s (s.mapTrunk t f) where
  pending := rfl
  tmb := rfl
  hwi := rfl
  profiles := rfl
  analysis := rfl
  clk := rfl
  sgtx := rfl
  ltx := rfl
  trunks u := by
    by_cases h : u = t
    · subst h; simpa using hf
    · rw [State.mapTrunk_trunk_ne _ _ h]; exact .refl _ _
  reports := .refl _
  fault := .refl _
  traffic _ := .refl _

/-- An update of a trunk that leaves its configuration, state, sent code, receiver and call record. -/
theorem Trunk.Inner.of_same {p : Vector Profile 4} {r r' : Trunk} (h1 : r'.role = r.role) (h2 : r'.profile = r.profile)
    (h3 : r'.group = r.group) (h4 : r'.glare = r.glare) (h5 : r'.localBlock = r.localBlock)
    (h6 : r'.lcr.accepted = r.lcr.accepted ∧ r'.lcr.candidate = r.lcr.candidate) (h7 : r'.state = r.state)
    (h8 : r'.sentCode = r.sentCode) (h9 : r'.record = r.record) : r.Inner p r' :=
  ⟨⟨h1, h2, h3, h4, h5, h6.1, h6.2⟩, fun ⟨ha, hb⟩ => ⟨by
    intro hr; rw [h1] at hr; rw [h7, h8, h2]; exact ha hr, by rw [h9]; exact hb⟩⟩

theorem State.mapUnit_inner (s : State) (u : UnitNo) (f : ToneUnit → ToneUnit) : Inner s (s.mapUnit u f) :=
  ⟨rfl, rfl, rfl, rfl, rfl, rfl, rfl, rfl, fun _ => .refl _ _, .refl _, .refl _, fun _ => .refl _⟩

theorem State.withCallQueue_inner (s : State) (q : List CallWait) : Inner s (s.withCallQueue q) :=
  ⟨rfl, rfl, rfl, rfl, rfl, rfl, rfl, rfl, fun _ => .refl _ _, .refl _, .refl _, fun _ => .refl _⟩

theorem State.withTestQueue_inner (s : State) (q : List TestWait) : Inner s (s.withTestQueue q) :=
  ⟨rfl, rfl, rfl, rfl, rfl, rfl, rfl, rfl, fun _ => .refl _ _, .refl _, .refl _, fun _ => .refl _⟩

/-! ### Captures and reports -/

theorem State.capture_inner (s : State) (k : FaultKind) (t : Option TrunkNo) : Inner s (s.capture k t) := by
  unfold State.capture
  split
  · rename_i h
    exact ⟨rfl, rfl, rfl, rfl, rfl, rfl, rfl, rfl, fun _ => .refl _ _, .refl _, ⟨by simp [h], by simp [h]⟩, fun _ => .refl _⟩
  · exact ⟨rfl, rfl, rfl, rfl, rfl, rfl, rfl, rfl, fun _ => .refl _ _, .refl _, ⟨fun _ e => e, fun _ _ => rfl⟩,
      fun _ => .refl _⟩

@[simp] theorem ReportQueue.judged_entries (q : ReportQueue) : q.judged.entries = q.entries := rfl

/-- Judging ATTN does not change the condition that ATTN follows. -/
theorem ReportQueue.judged_attn (q : ReportQueue) : q.judged.attn = q.judged.wantsAttention := rfl

theorem ReportEntry.takes_iff (e : ReportEntry) (t : Option TrunkNo) (b : ReportBody) :
    e.takes t b = true ↔ e.body.kindCode = b.kindCode ∧ e.trunk = t := by simp [ReportEntry.takes]

/-- Two bodies of one kind are in one class. -/
theorem ReportBody.isCondition_of_kindCode {a b : ReportBody} (h : a.kindCode = b.kindCode) :
    a.isCondition = b.isCondition := by
  cases a <;> cases b <;> simp_all [ReportBody.kindCode, ReportBody.isCondition]

theorem ReportEntry.merge_key (e : ReportEntry) (t : Option TrunkNo) (b : ReportBody) (x : Stamp)
    (h : e.takes t b = true) : (e.merge b x).key = e.key := by
  rw [ReportEntry.takes_iff] at h
  simp [ReportEntry.merge, ReportEntry.key, h.1]

/-- Clashing depends on the keys alone. -/
theorem ReportEntry.clashes_of_key {a b a' b' : ReportEntry} (ha : a'.key = a.key) (hb : b'.key = b.key)
    (h : a'.clashes b') : a.clashes b := by
  simp only [ReportEntry.key, Prod.mk.injEq] at ha hb
  obtain ⟨h1, h2, h3⟩ := h
  exact ⟨by rw [← ReportBody.isCondition_of_kindCode ha.1]; exact h1, by rw [← ha.1, ← hb.1]; exact h2,
    by rw [← ha.2, ← hb.2]; exact h3⟩

/-- A queue after its entries have been changed in place, one by one, with their keys kept. -/
theorem ReportQueue.pairwise_map {l : List ReportEntry} (f : ReportEntry → ReportEntry)
    (hf : ∀ e ∈ l, (f e).key = e.key) (h : l.Pairwise fun a b => ¬ a.clashes b) :
    (l.map f).Pairwise fun a b => ¬ a.clashes b := by
  rw [List.pairwise_map]
  exact h.imp_of_mem fun ha hb hn hc => hn (ReportEntry.clashes_of_key (hf _ ha) (hf _ hb) hc)

theorem ReportQueue.judged_inner {q q' : ReportQueue} (ht : q'.threshold = q.threshold) (hh : q'.holdTime = q.holdTime)
    (ho : q.entries.map ReportEntry.key <+: q'.entries.map ReportEntry.key)
    (hk : ∀ e ∈ q.entries, e.body.isCondition = false → e ∈ q'.entries)
    (hl : (q.sequenceLoss = true → q'.sequenceLoss = true) ∧ (q.conditionLoss = true → q'.conditionLoss = true))
    (hs : q.sound → q'.entries.length ≤ Config.reportRoom ∧ (q'.entries.Pairwise fun a b => ¬ a.clashes b) ∧
      ∀ e ∈ q'.entries, e.sound) : q.Inner q'.judged :=
  ⟨⟨ht, hh⟩, ho, hk, hl, fun h => by
    obtain ⟨h1, h2, h3⟩ := hs h
    obtain ⟨-, -, -, -, h5, h6⟩ := h
    exact ⟨h1, h2, h3, rfl, by simpa [ReportQueue.judged, ht] using h5, by simpa [ReportQueue.judged, ht] using h6⟩⟩

/-- A new entry at the tail of a sound queue with room, that clashes with none in it. -/
theorem ReportQueue.join_inner {q : ReportQueue} {t : Option TrunkNo} {b : ReportBody} {x : Stamp}
    (hr : q.entries.length < Config.reportRoom)
    (hn : ∀ e ∈ q.entries, b.isCondition = true → ¬ e.takes t b = true) : q.Inner (q.join t b x).judged := by
  refine ReportQueue.judged_inner rfl rfl ?_ (fun e he _ => ?_) ⟨id, id⟩ ?_
  · simp [ReportQueue.join]
  · simp [ReportQueue.join, he]
  · rintro ⟨-, h2, h3, -⟩
    refine ⟨by simp [ReportQueue.join]; omega, ?_, ?_⟩
    · simp only [ReportQueue.join, List.pairwise_append, List.pairwise_cons, List.not_mem_nil, false_implies, implies_true,
        List.Pairwise.nil, and_self, List.mem_singleton, forall_eq, true_and]
      refine ⟨h2, fun e he hc => ?_⟩
      obtain ⟨c1, c2, c3⟩ := hc
      exact hn e he (by rw [← ReportBody.isCondition_of_kindCode c2]; exact c1)
        ((ReportEntry.takes_iff _ _ _).mpr ⟨c2, c3⟩)
    · simp only [ReportQueue.join, List.mem_append, List.mem_singleton]
      rintro e (he | rfl)
      · exact h3 e he
      · exact ⟨fun _ => rfl, by simp⟩

theorem ReportQueue.admitCondition_inner (q : ReportQueue) (t : Option TrunkNo) (b : ReportBody) (x : Stamp)
    (hb : b.isCondition = true) : q.Inner (q.admitCondition t b x).judged := by
  unfold ReportQueue.admitCondition
  split_ifs with h1 h2
  · have hk : ∀ e ∈ q.entries, (if e.takes t b then e.merge b x else e).key = e.key := by
      intro e _
      split_ifs with he
      · exact e.merge_key t b x he
      · rfl
    refine ReportQueue.judged_inner rfl rfl ?_ (fun e he hc => ?_) ⟨id, id⟩ ?_
    · rw [List.map_map, List.map_congr_left (f := ReportEntry.key ∘ _) (g := ReportEntry.key) hk]
    · refine List.mem_map.mpr ⟨e, he, if_neg fun ht => ?_⟩
      rw [ReportBody.isCondition_of_kindCode ((ReportEntry.takes_iff _ _ _).mp ht).1, hb] at hc
      exact Bool.noConfusion hc
    · rintro ⟨h1, h2, h3, -⟩
      refine ⟨by simpa using h1, ReportQueue.pairwise_map _ hk h2, ?_⟩
      simp only [List.mem_map]
      rintro _ ⟨e, he, rfl⟩
      split_ifs with ht
      · exact ⟨by simp [ReportEntry.merge, hb], by simp [ReportEntry.merge]⟩
      · exact h3 e he
  · refine ReportQueue.join_inner (by simp only [Config.conditionRoom, Config.reportRoom] at *; omega) ?_
    intro e he _ ht
    exact h1 (List.any_eq_true.mpr ⟨e, he, ht⟩)
  · exact ReportQueue.judged_inner rfl rfl List.prefix_rfl (fun _ h _ => h) ⟨id, fun _ => rfl⟩ fun h => ⟨h.1, h.2.1, h.2.2.1⟩

theorem ReportQueue.admitSequenced_inner (q : ReportQueue) (t : Option TrunkNo) (b : ReportBody) (x : Stamp)
    (hb : b.isCondition = false) : q.Inner (q.admitSequenced t b x).judged := by
  unfold ReportQueue.admitSequenced
  split_ifs with h
  · exact ReportQueue.join_inner h (by simp [hb])
  · exact ReportQueue.judged_inner rfl rfl List.prefix_rfl (fun _ h _ => h) ⟨fun _ => rfl, id⟩ fun h => ⟨h.1, h.2.1, h.2.2.1⟩

theorem State.withReports_inner (s : State) (q : ReportQueue) (h : s.rqa.Inner q.judged) : Inner s (s.withReports q) :=
  ⟨rfl, rfl, rfl, rfl, rfl, rfl, rfl, rfl, fun _ => .refl _ _, h, .refl _, fun _ => .refl _⟩

theorem State.submit_inner (s : State) (t : Option TrunkNo) (b : ReportBody) : Inner s (s.submit t b) := by
  unfold State.submit
  split_ifs with h1 h2
  · exact s.withReports_inner _ (ReportQueue.admitCondition_inner _ _ _ _ h1)
  · exact s.withReports_inner _ (ReportQueue.admitSequenced_inner _ _ _ _ (by simpa using h1))
  · exact (s.withReports_inner _ (ReportQueue.admitSequenced_inner _ _ _ _ (by simpa using h1))).trans
      (State.capture_inner _ _ _)

/-- A sequenced report that stands in the queue stays there. -/
theorem Inner.reported {a b : State} (h : Inner a b) {t : Option TrunkNo} {x : ReportBody} (hx : x.isCondition = false)
    (k : a.reported t x) : b.reported t x := fun hl => by
  rw [h.tmb]
  refine h.reports.kept _ (k ?_) hx
  by_contra hc
  rw [h.reports.losses.1 (by simpa using hc)] at hl
  exact Bool.noConfusion hl

/-- A sequenced report that has just been submitted. -/
theorem State.submit_reported (s : State) (t : Option TrunkNo) {x : ReportBody} (hx : x.isCondition = false) :
    (s.submit t x).reported t x := by
  unfold State.submit
  rw [if_neg (by simp [hx])]
  split_ifs with h
  · intro _
    simp [State.withReports, ReportQueue.admitSequenced, h, ReportQueue.join, ReportQueue.judged]
  · intro hl
    simp [State.capture_rqa, State.withReports, ReportQueue.admitSequenced, h, ReportQueue.judged] at hl

/-! ### Traffic counters and call records -/

theorem State.countFor_inner (s : State) (t : TrunkNo) (f : Traffic → Traffic) (hf : ∀ c : Traffic, c.Inner (f c)) :
    Inner s (s.countFor t f) where
  pending := rfl
  tmb := rfl
  hwi := rfl
  profiles := rfl
  analysis := rfl
  clk := rfl
  sgtx := rfl
  ltx := rfl
  trunks _ := .refl _ _
  reports := .refl _
  fault := .refl _
  traffic g := by
    simp only [State.countFor, get_set]
    split_ifs with h
    · subst h; exact hf _
    · exact .refl _

theorem countUp_le (n k : Nat) : countUp n k ≤ Config.counterMax := by simp [countUp]

theorem le_countUp {n k : Nat} (h : n ≤ Config.counterMax) : n ≤ countUp n k := by simp [countUp]; omega

theorem Traffic.addAttempt_inner (c : Traffic) : c.Inner c.addAttempt := fun ⟨h1, h2, h3, h4, h5, h6⟩ =>
  ⟨⟨countUp_le _ _, h2, h3, h4, h5, h6⟩, le_countUp h1, le_rfl, le_rfl, le_rfl, le_rfl, le_rfl⟩
theorem Traffic.addOutAnswer_inner (c : Traffic) : c.Inner c.addOutAnswer := fun ⟨h1, h2, h3, h4, h5, h6⟩ =>
  ⟨⟨h1, countUp_le _ _, h3, h4, h5, h6⟩, le_rfl, le_countUp h2, le_rfl, le_rfl, le_rfl, le_rfl⟩
theorem Traffic.addSeizure_inner (c : Traffic) : c.Inner c.addSeizure := fun ⟨h1, h2, h3, h4, h5, h6⟩ =>
  ⟨⟨h1, h2, countUp_le _ _, h4, h5, h6⟩, le_rfl, le_rfl, le_countUp h3, le_rfl, le_rfl, le_rfl⟩
theorem Traffic.addInAnswer_inner (c : Traffic) : c.Inner c.addInAnswer := fun ⟨h1, h2, h3, h4, h5, h6⟩ =>
  ⟨⟨h1, h2, h3, countUp_le _ _, h5, h6⟩, le_rfl, le_rfl, le_rfl, le_countUp h4, le_rfl, le_rfl⟩
theorem Traffic.addFailure_inner (c : Traffic) : c.Inner c.addFailure := fun ⟨h1, h2, h3, h4, h5, h6⟩ =>
  ⟨⟨h1, h2, h3, h4, countUp_le _ _, h6⟩, le_rfl, le_rfl, le_rfl, le_rfl, le_countUp h5, le_rfl⟩

/-- An update of a call record that keeps the record's bounds. -/
theorem State.mapRecord_inner (s : State) (t : TrunkNo) (f : CallRecord → CallRecord)
    (hf : ∀ k, k.sound → (f k).sound) : Inner s (s.mapRecord t f) := by
  refine s.mapTrunk_inner t _ ⟨⟨rfl, rfl, rfl, rfl, rfl, rfl, rfl⟩, fun ⟨ha, hb⟩ => ⟨ha, ?_⟩⟩
  intro k hk
  simp only [Option.map_eq_some_iff] at hk
  obtain ⟨k0, h0, rfl⟩ := hk
  exact hf _ (hb _ h0)

theorem CallRecord.countAnswer_sound {k : CallRecord} (h : k.sound) : k.countAnswer.sound :=
  ⟨h.1, h.2.1, by simp [CallRecord.countAnswer]⟩

theorem State.openRecord_inner (s : State) (t : TrunkNo) (d : Direction) (r : CallRef) (k : Option Category) :
    Inner s (s.openRecord t d r k) :=
  s.mapTrunk_inner t _ ⟨⟨rfl, rfl, rfl, rfl, rfl, rfl, rfl⟩, fun ⟨ha, _⟩ => ⟨ha, by
    rintro _ ⟨rfl⟩; exact ⟨le_rfl, by simp, by simp⟩⟩⟩

theorem State.stampAnswer_inner (s : State) (t : TrunkNo) : Inner s (s.stampAnswer t) :=
  s.mapRecord_inner t _ fun _ h => CallRecord.countAnswer_sound h

theorem State.recordDigit_inner (s : State) (t : TrunkNo) (d : Digit) : Inner s (s.recordDigit t d) :=
  s.mapRecord_inner t _ fun _ h => h

theorem State.closeRecord_inner (s : State) (t : TrunkNo) (c : Cause) : Inner s (s.closeRecord t c) := by
  unfold State.closeRecord
  split
  · exact .refl _
  · exact (s.mapTrunk_inner t _ ⟨⟨rfl, rfl, rfl, rfl, rfl, rfl, rfl⟩, fun ⟨ha, _⟩ => ⟨ha, by simp⟩⟩).trans
      (State.submit_inner _ _ _)

/-! ### Timers, causes, filter modes and states -/

theorem State.startTimer_inner (s : State) (t : TrunkNo) (k : SupervisionKind) (n : Nat) :
    Inner s (s.startTimer t k n) :=
  s.mapTrunk_inner t _ (.of_same rfl rfl rfl rfl rfl ⟨rfl, rfl⟩ rfl rfl rfl)

theorem State.dropTimer_inner (s : State) (t : TrunkNo) : Inner s (s.dropTimer t) :=
  s.mapTrunk_inner t _ (.of_same rfl rfl rfl rfl rfl ⟨rfl, rfl⟩ rfl rfl rfl)

theorem State.giveCause_inner (s : State) (t : TrunkNo) (c : Cause) : Inner s (s.giveCause t c) :=
  s.mapTrunk_inner t _ (.of_same rfl rfl rfl rfl rfl ⟨rfl, rfl⟩ rfl rfl rfl)

theorem State.setFilter_inner (s : State) (t : TrunkNo) (m : FilterMode) : Inner s (s.setFilter t m) :=
  s.mapTrunk_inner t _ (.of_same rfl rfl rfl rfl rfl ⟨rfl, rfl⟩ rfl rfl rfl)

/-- In every state but UNEQUIPPED the sent code is that of a line signal (R35). -/
theorem sentCodeOf_legal (c : SendCodes) (role : Role) {st : TrunkState} (h : st ≠ .unequipped) :
    ∃ sig, sentCodeOf c role st = c.of sig := by
  have hs : (sentSignal role st).isSome = true := by cases st <;> first | exact absurd rfl h | rfl
  obtain ⟨sig, hsig⟩ := Option.isSome_iff_exists.mp hs
  exact ⟨sig, by simp [sentCodeOf, hsig]⟩

theorem State.enter_inner (s : State) (t : TrunkNo) {st : TrunkState} (h : st ≠ .unequipped) : Inner s (s.enter t st) :=
  s.mapTrunk_inner t _ ⟨⟨rfl, rfl, rfl, rfl, rfl, rfl, rfl⟩, fun ⟨_, hb⟩ => ⟨fun _ => ⟨h, sentCodeOf_legal _ _ h⟩, hb⟩⟩

theorem State.sendSignal_inner (s : State) (t : TrunkNo) (sig : LineSignal) : Inner s (s.sendSignal t sig) :=
  s.mapTrunk_inner t _ ⟨⟨rfl, rfl, rfl, rfl, rfl, rfl, rfl⟩, fun ⟨ha, hb⟩ => ⟨fun hr => ⟨(ha hr).1, sig, rfl⟩, hb⟩⟩

/-! ### Iteration -/

theorem foldl_inner {α : Type} (f : State → α → State) (hf : ∀ s x, Inner s (f s x)) (l : List α) (s : State) :
    Inner s (l.foldl f s) := by
  induction l generalizing s with
  | nil => exact .refl s
  | cons x l ih => exact (hf s x).trans (ih _)

theorem State.forTrunks_inner (s : State) (f : State → TrunkNo → State) (hf : ∀ s t, Inner s (f s t)) :
    Inner s (s.forTrunks f) := foldl_inner f hf _ s

theorem State.forUnits_inner (s : State) (f : State → UnitNo → State) (hf : ∀ s u, Inner s (f s u)) :
    Inner s (s.forUnits f) := foldl_inner f hf _ s

end Sys2Proof.Machine
end

