-- ==== Sys2Proof/Laws/Engines.lean ====
section
/-! SUPPORT. Every shared operation of the pool, the trunk supervisor, the relay links and the engines is an inner one:
one lemma each. -/

namespace Sys2Proof.Machine

/-! ### The pool -/

theorem State.startSignal_inner (s : State) (t : TrunkNo) (sig : ToneSignal) : Inner s (s.startSignal t sig) := by
  unfold State.startSignal
  split
  · exact .refl s
  · exact s.mapUnit_inner _ _

theorem State.stopSignal_inner (s : State) (t : TrunkNo) : Inner s (s.stopSignal t) := by
  unfold State.stopSignal
  split
  · exact .refl s
  · exact s.mapUnit_inner _ _

theorem State.setTone_inner (s : State) (t : TrunkNo) (c : ToneContext) : Inner s (s.setTone t c) :=
  s.mapTrunk_inner t _ (.of_same rfl rfl rfl rfl rfl ⟨rfl, rfl⟩ rfl rfl rfl)

theorem State.sendItem_inner (s : State) (t : TrunkNo) (c : ToneSender) (i : SendItem) : Inner s (s.sendItem t c i) :=
  (s.startSignal_inner t _).trans (State.setTone_inner _ _ _)

theorem State.chooseItem_inner (s : State) (t : TrunkNo) (c : ToneSender) : Inner s (s.chooseItem t c) := by
  unfold State.chooseItem
  split
  · exact s.sendItem_inner t c _
  · exact s.setTone_inner t _

theorem State.openSender_inner (s : State) (t : TrunkNo) : Inner s (s.openSender t) := s.chooseItem_inner t _

theorem State.openReceiver_inner (s : State) (t : TrunkNo) : Inner s (s.openReceiver t) := s.setTone_inner t _

theorem State.grantCall_inner (s : State) (u : UnitNo) (t : TrunkNo) (role : UnitRole) :
    Inner s (s.grantCall u t role) := by
  have h : Inner s ((s.mapUnit u fun _ => { status := .signalling t role }).mapTrunk t fun r =>
      { r with unit := some { unit := u, role := role } }) :=
    (s.mapUnit_inner u _).trans
      (State.mapTrunk_inner _ t _ (.of_same rfl rfl rfl rfl rfl ⟨rfl, rfl⟩ rfl rfl rfl))
  unfold State.grantCall
  cases role
  · exact h.trans (State.openSender_inner _ t)
  · exact h.trans (State.openReceiver_inner _ t)

theorem State.grantTest_inner (s : State) (u : UnitNo) (t : TrunkNo) (n : Nat) : Inner s (s.grantTest u t n) :=
  s.mapUnit_inner u _

theorem State.handOn_inner (s : State) (u : UnitNo) : Inner s (s.handOn u) := by
  unfold State.handOn
  split
  · exact (s.withCallQueue_inner _).trans (State.grantCall_inner _ _ _ _)
  · split
    · split_ifs
      · exact .refl s
      · exact (s.withTestQueue_inner _).trans (State.grantTest_inner _ _ _ _)
    · exact .refl s

theorem State.freeUnit_inner (s : State) (b : Bool) (u : UnitNo) : Inner s (s.freeUnit b u) := by
  have h : Inner s (s.mapUnit u fun _ => {}) := s.mapUnit_inner u _
  unfold State.freeUnit
  cases b
  · exact h
  · exact h.trans (State.handOn_inner _ u)

theorem State.endTone_inner (s : State) (b : Bool) (t : TrunkNo) : Inner s (s.endTone b t) := by
  have h : Inner s (s.mapTrunk t fun r => { r with tone := none, unit := none }) :=
    s.mapTrunk_inner t _ (.of_same rfl rfl rfl rfl rfl ⟨rfl, rfl⟩ rfl rfl rfl)
  unfold State.endTone
  dsimp only
  split
  · exact h
  · exact h.trans (State.freeUnit_inner _ _ _)

theorem State.leaveQueue_inner (s : State) (t : TrunkNo) : Inner s (s.leaveQueue t) := s.withCallQueue_inner _

theorem State.reportMeasurement_inner (s : State) (u : UnitNo) (t : TrunkNo) (x : TestStatus) (n : Nat) :
    Inner s (s.reportMeasurement u t x n) := s.submit_inner _ _

theorem State.grantOrQueue_inner (s : State) (t : TrunkNo) (role : UnitRole) : Inner s (s.grantOrQueue t role) := by
  unfold State.grantOrQueue
  split
  · exact s.grantCall_inner _ t role
  · exact (s.withCallQueue_inner _).trans (State.submit_inner _ _ _)

theorem State.callRequest_inner (s : State) (t : TrunkNo) (role : UnitRole) : Inner s (s.callRequest t role) := by
  unfold State.callRequest
  split
  · exact (s.reportMeasurement_inner _ t _ _).trans (State.grantCall_inner _ _ t role)
  · split_ifs
    · exact ((s.withTestQueue_inner _).trans (State.submit_inner _ _ _)).trans (State.grantOrQueue_inner _ t role)
    · exact s.grantOrQueue_inner t role

theorem State.serveTests_inner (s : State) : Inner s s.serveTests := by
  refine s.forUnits_inner _ fun a u => ?_
  split
  · split_ifs
    · exact (a.withTestQueue_inner _).trans (State.grantTest_inner _ _ _ _)
    · exact .refl a
  · exact .refl a

theorem State.abortMeasurements_inner (s : State) : Inner s s.abortMeasurements := by
  refine s.forUnits_inner _ fun a u => ?_
  split
  · exact (a.reportMeasurement_inner _ _ _ _).trans (State.freeUnit_inner _ _ _)
  · exact .refl a

/-! ### The trunk supervisor -/

theorem State.stopRegister_inner (s : State) (b : Bool) (t : TrunkNo) : Inner s (s.stopRegister b t) :=
  (((s.mapTrunk_inner t _ (.of_same rfl rfl rfl rfl rfl ⟨rfl, rfl⟩ rfl rfl rfl)).trans
    (State.endTone_inner _ b t)).trans (State.leaveQueue_inner _ t)).trans (State.setFilter_inner _ t _)

theorem State.endCall_inner (s : State) (b : Bool) (t : TrunkNo) (c : Cause) : Inner s (s.endCall b t c) :=
  ((s.stopRegister_inner b t).trans
    (State.mapTrunk_inner _ t _ (.of_same rfl rfl rfl rfl rfl ⟨rfl, rfl⟩ rfl rfl rfl))).trans
    (State.closeRecord_inner _ t c)

theorem State.enterFailed_inner (s : State) (t : TrunkNo) (c : Cause) (r : Option CallRef) :
    Inner s (s.enterFailed t c r) := by
  have h : Inner s
      ((((s.mapTrunk t fun r => { r with cause := some c }).enter t .failed).submit (some t)
        (.trunkFailed c r)).countFor t Traffic.addFailure) :=
    (((s.mapTrunk_inner t _ (.of_same rfl rfl rfl rfl rfl ⟨rfl, rfl⟩ rfl rfl rfl)).trans
      (State.enter_inner _ t (by decide))).trans (State.submit_inner _ _ _)).trans
      (State.countFor_inner _ t _ Traffic.addFailure_inner)
  unfold State.enterFailed
  dsimp only
  split_ifs
  · exact h
  · exact h.trans (State.capture_inner _ _ _)

theorem State.inOutcome_inner (s : State) (t : TrunkNo) (o : RegOutcome) : Inner s (s.inOutcome t o) := by
  have h : Inner s (((s.leaveQueue t).mapTrunk t fun r =>
      { r with decadic := r.decadic.map DecadicContext.toWatch }).setFilter t .line) :=
    ((s.leaveQueue_inner t).trans
      (State.mapTrunk_inner _ t _ (.of_same rfl rfl rfl rfl rfl ⟨rfl, rfl⟩ rfl rfl rfl))).trans
      (State.setFilter_inner _ t _)
  unfold State.inOutcome
  dsimp only
  split_ifs
  · exact .refl s
  · cases o
    · exact (h.trans (State.enter_inner _ t (by decide))).trans (State.submit_inner _ _ _)
    · exact (((h.trans (State.giveCause_inner _ t _)).trans (State.enter_inner _ t (by decide))).trans
        (State.submit_inner _ _ _)).trans (State.countFor_inner _ t _ Traffic.addFailure_inner)

theorem State.startReceiving_inner (s : State) (t : TrunkNo) : Inner s (s.startReceiving t) := by
  unfold State.startReceiving
  split
  · exact s.inOutcome_inner t _
  · exact (s.setFilter_inner t _).trans
      (State.mapTrunk_inner _ t _ (.of_same rfl rfl rfl rfl rfl ⟨rfl, rfl⟩ rfl rfl rfl))
  · exact s.callRequest_inner t _

theorem State.raiseSequence_inner (s : State) : Inner s { s with sequence := s.sequence + 1 } :=
  ⟨rfl, rfl, rfl, rfl, rfl, rfl, rfl, rfl, fun _ => .refl _ _, .refl _, .refl _, fun _ => .refl _⟩

theorem State.incomingSeizure_inner (s : State) (t : TrunkNo) : Inner s (s.incomingSeizure t) :=
  (((((s.raiseSequence_inner).trans (State.openRecord_inner _ t _ _ _)).trans
    (State.countFor_inner _ t _ Traffic.addSeizure_inner)).trans (State.enter_inner _ t (by decide))).trans
    (State.submit_inner _ _ _)).trans (State.startReceiving_inner _ t)

theorem State.lineAnomaly_inner (s : State) (t : TrunkNo) (c : LineCode) : Inner s (s.lineAnomaly t c) :=
  s.submit_inner _ _

theorem State.setRemoteBlock_inner (s : State) (t : TrunkNo) : Inner s (s.setRemoteBlock t) := by
  unfold State.setRemoteBlock
  split_ifs
  · exact .refl s
  · exact (s.mapTrunk_inner t _ (.of_same rfl rfl rfl rfl rfl ⟨rfl, rfl⟩ rfl rfl rfl)).trans (State.submit_inner _ _ _)

theorem State.noteIdle_inner (s : State) (t : TrunkNo) (sig : LineSignal) : Inner s (s.noteIdle t sig) := by
  unfold State.noteIdle
  split_ifs
  · exact (s.mapTrunk_inner t _ (.of_same rfl rfl rfl rfl rfl ⟨rfl, rfl⟩ rfl rfl rfl)).trans (State.submit_inner _ _ _)
  · exact .refl s

theorem State.decodeIdle_inner (s : State) (t : TrunkNo) : Inner s (s.decodeIdle t) := by
  unfold State.decodeIdle
  split
  · exact .refl s
  · exact s.lineAnomaly_inner t _
  · rename_i code sig action _
    have h := s.noteIdle_inner t sig
    cases action <;> first
      | exact h
      | exact h.trans (State.incomingSeizure_inner _ t)
      | exact (h.trans (State.setRemoteBlock_inner _ t)).trans (State.enter_inner _ t (by decide))

theorem State.enterIdle_inner (s : State) (t : TrunkNo) : Inner s (s.enterIdle t) := by
  unfold State.enterIdle
  split_ifs
  · exact s.enter_inner t (by decide)
  · exact (s.enter_inner t (by decide)).trans (State.decodeIdle_inner _ t)

theorem State.clearCause_inner (s : State) (t : TrunkNo) : Inner s (s.mapTrunk t fun r => { r with cause := none }) :=
  s.mapTrunk_inner t _ (.of_same rfl rfl rfl rfl rfl ⟨rfl, rfl⟩ rfl rfl rfl)

theorem State.finishCall_inner (s : State) (t : TrunkNo) : Inner s (s.finishCall t) :=
  ((s.endCall_inner true t _).trans (State.clearCause_inner _ t)).trans (State.enterIdle_inner _ t)

theorem State.decodeClearing_inner (s : State) (t : TrunkNo) : Inner s (s.decodeClearing t) := by
  unfold State.decodeClearing
  split
  · exact .refl s
  · exact s.lineAnomaly_inner t _
  · rename_i code sig action _
    have h := s.noteIdle_inner t sig
    cases action <;> first
      | exact h
      | exact h.trans (State.finishCall_inner _ t)

theorem State.clearOut_inner (s : State) (t : TrunkNo) : Inner s (s.clearOut t) :=
  (((s.dropTimer_inner t).trans (State.enter_inner _ t (by decide))).trans (State.startTimer_inner _ t _ _)).trans
    (State.decodeClearing_inner _ t)

theorem State.forcedClear_inner (s : State) (t : TrunkNo) (c : Cause) : Inner s (s.forcedClear t c) :=
  ((s.giveCause_inner t c).trans (State.stopRegister_inner _ true t)).trans (State.clearOut_inner _ t)

theorem State.enterWaitAnswer_inner (s : State) (t : TrunkNo) : Inner s (s.enterWaitAnswer t) := by
  have h := s.enter_inner t (st := .outWaitAnswer) (by decide)
  unfold State.enterWaitAnswer
  dsimp only
  split_ifs
  · exact h
  · exact h.trans (State.startTimer_inner _ t _ _)

theorem State.outOutcomeAlone_inner (s : State) (t : TrunkNo) (o : RegOutcome) : Inner s (s.outOutcomeAlone t o) := by
  have h : Inner s (s.mapTrunk t fun r => { r with decadic := none }) :=
    s.mapTrunk_inner t _ (.of_same rfl rfl rfl rfl rfl ⟨rfl, rfl⟩ rfl rfl rfl)
  unfold State.outOutcomeAlone
  cases o
  · exact (h.trans (State.enterWaitAnswer_inner _ t)).trans (State.submit_inner _ _ _)
  · exact (((h.trans (State.giveCause_inner _ t _)).trans (State.enter_inner _ t (by decide))).trans
      (State.submit_inner _ _ _)).trans (State.countFor_inner _ t _ Traffic.addFailure_inner)

/-! ### Relay links -/

theorem State.respondOutcome_inner (s : State) (t : TrunkNo) (c : ToneReceiver) (o : RegOutcome) :
    Inner s (s.respondOutcome t c o) :=
  ((s.startSignal_inner t _).trans (State.setTone_inner _ t _)).trans (State.inOutcome_inner _ t o)

theorem State.pulseOutcome_inner (s : State) (t : TrunkNo) (c : ToneReceiver) (o : RegOutcome) :
    Inner s (s.pulseOutcome t c o) :=
  ((s.startSignal_inner t _).trans (State.setTone_inner _ t _)).trans (State.inOutcome_inner _ t o)

theorem State.outsideOutcome_inner (s : State) (t : TrunkNo) (c : ToneReceiver) (o : RegOutcome) :
    Inner s (s.outsideOutcome t c o) := by
  unfold State.outsideOutcome
  split
  · exact .refl s
  · split
    · split_ifs
      · exact s.pulseOutcome_inner t c o
      · exact s.respondOutcome_inner t c o
    · exact s.pulseOutcome_inner t c o
    · exact s.setTone_inner t _
    · exact .refl s
    · exact .refl s

theorem State.unlink_inner (s : State) (t : TrunkNo) :
    Inner s (s.mapTrunk t fun r => { r with link := none, linkRecord := none }) :=
  s.mapTrunk_inner t _ (.of_same rfl rfl rfl rfl rfl ⟨rfl, rfl⟩ rfl rfl rfl)

theorem State.dissolve_inner (s : State) (i o : TrunkNo) (e : LinkEnding) (x : Option RegResult) :
    Inner s (s.dissolve i o e x) :=
  ((s.unlink_inner i).trans (State.unlink_inner _ o)).trans (State.submit_inner _ _ _)

theorem State.takeCarried_inner (s : State) (t : TrunkNo) (o : RegOutcome) : Inner s (s.takeCarried t o) := by
  unfold State.takeCarried
  split
  · exact s.outsideOutcome_inner t _ o
  · exact s.inOutcome_inner t o

theorem State.carryBack_inner (s : State) (t : TrunkNo) (o : RegOutcome) : Inner s (s.carryBack t o) := by
  unfold State.carryBack
  split
  · exact .refl s
  · exact (s.dissolve_inner _ _ _ _).trans (State.takeCarried_inner _ _ _)

theorem State.inletGone_inner (s : State) (t : TrunkNo) : Inner s (s.inletGone t) := by
  unfold State.inletGone
  split
  · exact .refl s
  · exact (s.dissolve_inner _ _ _ _).trans (State.forcedClear_inner _ _ _)

theorem State.endRegisterWork_inner (s : State) (t : TrunkNo) (o : RegOutcome) : Inner s (s.endRegisterWork t o) :=
  ((s.stopRegister_inner true t).trans (State.carryBack_inner _ t o)).trans (State.inletGone_inner _ t)

theorem State.outOutcome_inner (s : State) (t : TrunkNo) (o : RegOutcome) : Inner s (s.outOutcome t o) := by
  unfold State.outOutcome
  split_ifs
  · exact .refl s
  · exact (s.outOutcomeAlone_inner t o).trans (State.carryBack_inner _ t o)

theorem State.rejectIn_inner (s : State) (t : TrunkNo) (c : Cause) : Inner s (s.rejectIn t c) :=
  (s.inOutcome_inner t _).trans (State.inletGone_inner _ t)

theorem State.startBreak_inner (s : State) (t : TrunkNo) (c : DecadicSender) (n : Nat) : Inner s (s.startBreak t c n) :=
  (s.sendSignal_inner t _).trans (State.mapTrunk_inner _ t _ (.of_same rfl rfl rfl rfl rfl ⟨rfl, rfl⟩ rfl rfl rfl))

theorem State.takeDigits_inner (s : State) (t : TrunkNo) : Inner s (s.takeDigits t) := by
  unfold State.takeDigits
  split
  · split_ifs
    · exact s.mapTrunk_inner t _ (.of_same rfl rfl rfl rfl rfl ⟨rfl, rfl⟩ rfl rfl rfl)
    · split
      · exact s.startBreak_inner t _ _
      · exact .refl s
    · exact .refl s
  · split_ifs
    · exact s.chooseItem_inner t _
    · exact .refl s
  · exact .refl s

theorem State.takeEnd_inner (s : State) (t : TrunkNo) : Inner s (s.takeEnd t) := by
  unfold State.takeEnd
  split
  · split_ifs
    · exact s.outOutcome_inner t _
    · exact .refl s
  · split_ifs
    · exact s.chooseItem_inner t _
    · exact .refl s
  · exact .refl s

theorem State.relayDigit_inner (s : State) (t : TrunkNo) (d : Digit) : Inner s (s.relayDigit t d) := by
  unfold State.relayDigit
  split
  · split_ifs
    · exact ((s.mapTrunk_inner t _ (.of_same rfl rfl rfl rfl rfl ⟨rfl, rfl⟩ rfl rfl rfl)).trans
        (State.mapTrunk_inner _ _ _ (.of_same rfl rfl rfl rfl rfl ⟨rfl, rfl⟩ rfl rfl rfl))).trans
        (State.takeDigits_inner _ _)
    · exact .refl s
  · exact .refl s

theorem State.completeInlet_inner (s : State) (t o : TrunkNo) : Inner s (s.completeInlet t o) :=
  ((s.mapTrunk_inner t _ (.of_same rfl rfl rfl rfl rfl ⟨rfl, rfl⟩ rfl rfl rfl)).trans
    (State.mapTrunk_inner _ o _ (.of_same rfl rfl rfl rfl rfl ⟨rfl, rfl⟩ rfl rfl rfl))).trans (State.takeEnd_inner _ o)

theorem State.completeIn_inner (s : State) (t : TrunkNo) : Inner s (s.completeIn t) := by
  unfold State.completeIn
  split
  · exact s.completeInlet_inner t _
  · exact s.inOutcome_inner t _

theorem State.showProgress_inner (s : State) (t : TrunkNo) : Inner s (s.showProgress t) := s.submit_inner _ _

theorem State.storeDigit_inner (s : State) (t : TrunkNo) (d : Digit) : Inner s (s.storeDigit t d) :=
  (s.mapTrunk_inner t _ (.of_same rfl rfl rfl rfl rfl ⟨rfl, rfl⟩ rfl rfl rfl)).trans (State.recordDigit_inner _ t d)

theorem State.dissolveForHoldLimit_inner (s : State) (t : TrunkNo) : Inner s (s.dissolveForHoldLimit t) := by
  unfold State.dissolveForHoldLimit
  split
  · exact s.dissolve_inner _ _ _ _
  · exact s.dissolve_inner _ _ _ _
  · exact .refl s

theorem State.runAnalysis_inner (s : State) (t : TrunkNo) : Inner s (s.runAnalysis t) := by
  unfold State.runAnalysis
  split
  · exact s.mapTrunk_inner t _ (.of_same rfl rfl rfl rfl rfl ⟨rfl, rfl⟩ rfl rfl rfl)
  · refine s.mapTrunk_inner t _ ⟨⟨rfl, rfl, rfl, rfl, rfl, rfl, rfl⟩, fun ⟨ha, hb⟩ => ⟨ha, ?_⟩⟩
    intro k hk
    simp only [Option.map_eq_some_iff] at hk
    obtain ⟨k0, h0, rfl⟩ := hk
    have hk0 : k0.sound := hb k0 h0
    exact hk0

/-! ### Line signals -/

theorem State.acknowledged_inner (s : State) (t : TrunkNo) : Inner s (s.acknowledged t) := by
  have h : Inner s ((((s.dropTimer t).mapRecord t fun r => { r with ackTime := some s.tmb.counter })).submit (some t)
      (.acknowledged ((((s.dropTimer t).mapRecord t fun r => { r with ackTime := some s.tmb.counter })).trunk t).callRef)) :=
    ((s.dropTimer_inner t).trans
      (State.mapRecord_inner _ t (fun r => { r with ackTime := some s.tmb.counter }) fun _ h => h)).trans
      (State.submit_inner _ _ _)
  unfold State.acknowledged
  dsimp only
  split
  · exact h.trans (State.enterWaitAnswer_inner _ t)
  · exact (h.trans (State.enter_inner _ t (by decide))).trans
      (State.mapTrunk_inner _ t _ (.of_same rfl rfl rfl rfl rfl ⟨rfl, rfl⟩ rfl rfl rfl))
  · exact (h.trans (State.enter_inner _ t (by decide))).trans (State.callRequest_inner _ t _)

theorem State.firstAnswer_inner (s : State) (t : TrunkNo) : Inner s (s.firstAnswer t) :=
  ((((s.dropTimer_inner t).trans (State.stampAnswer_inner _ t)).trans
    (State.countFor_inner _ t _ Traffic.addOutAnswer_inner)).trans (State.submit_inner _ _ _)).trans
    (State.enter_inner _ t (by decide))

theorem State.earlyAnswer_inner (s : State) (t : TrunkNo) : Inner s (s.earlyAnswer t) :=
  (s.endRegisterWork_inner t _).trans (State.firstAnswer_inner _ t)

theorem State.clearBackBeforeAnswer_inner (s : State) (t : TrunkNo) : Inner s (s.clearBackBeforeAnswer t) :=
  (((((s.endRegisterWork_inner t _).trans (State.dropTimer_inner _ t)).trans (State.giveCause_inner _ t _)).trans
    (State.enter_inner _ t (by decide))).trans (State.submit_inner _ _ _)).trans
    (State.countFor_inner _ t _ Traffic.addFailure_inner)

theorem State.clearedBack_inner (s : State) (t : TrunkNo) : Inner s (s.clearedBack t) := by
  have h : Inner s ((s.enter t .outClearback).submit (some t) (.clearBack ((s.enter t .outClearback).trunk t).callRef)) :=
    (s.enter_inner t (by decide)).trans (State.submit_inner _ _ _)
  unfold State.clearedBack
  dsimp only
  split_ifs
  · exact (s.enter_inner t (by decide)).trans (State.submit_inner _ _ _)
  · exact ((s.enter_inner t (by decide)).trans (State.submit_inner _ _ _)).trans (State.startTimer_inner _ t _ _)

theorem State.reAnswered_inner (s : State) (t : TrunkNo) : Inner s (s.reAnswered t) :=
  (((s.dropTimer_inner t).trans (State.mapRecord_inner _ t _ fun _ h => CallRecord.countAnswer_sound h)).trans
    (State.submit_inner _ _ _)).trans (State.enter_inner _ t (by decide))

theorem State.clearForward_inner (s : State) (t : TrunkNo) : Inner s (s.clearForward t) :=
  ((((s.endRegisterWork_inner t _).trans (State.setFilter_inner _ t _)).trans (State.enter_inner _ t (by decide))).trans
    (State.startTimer_inner _ t _ _)).trans (State.submit_inner _ _ _)

theorem State.dropRecord_inner (s : State) (t : TrunkNo) :
    Inner s (s.mapTrunk t fun r => { r with record := none, send := {} }) :=
  s.mapTrunk_inner t _ ⟨⟨rfl, rfl, rfl, rfl, rfl, rfl, rfl⟩, fun ⟨ha, _⟩ => ⟨ha, by simp⟩⟩

theorem State.dualSeizure_inner (s : State) (t : TrunkNo) : Inner s (s.dualSeizure t) := by
  unfold State.dualSeizure
  split
  · exact .refl s
  · exact ((((s.submit_inner _ _).trans (State.dropTimer_inner _ t)).trans (State.dropRecord_inner _ t)).trans
      (State.carryBack_inner _ t _)).trans (State.incomingSeizure_inner _ t)

theorem State.idleSignal_inner (s : State) (t : TrunkNo) : Inner s (s.idleSignal t) := by
  unfold State.idleSignal
  split_ifs
  · exact (s.clearCause_inner t).trans (State.enterIdle_inner _ t)
  · exact .refl s

theorem State.act_inner (s : State) (t : TrunkNo) (a : LineAction) : Inner s (s.act t a) :=
  match a with
  | .nothing => .refl s
  | .remoteBlocking => .refl s
  | .remoteFlag => s.setRemoteBlock_inner t
  | .remoteUnblocking => s.enterIdle_inner t
  | .incomingSeizure => .refl s
  | .idleSignal => s.idleSignal_inner t
  | .acknowledgement => s.acknowledged_inner t
  | .dualSeizure => s.dualSeizure_inner t
  | .earlyAnswer => s.earlyAnswer_inner t
  | .answer => s.firstAnswer_inner t
  | .clearBack => s.clearedBack_inner t
  | .reAnswer => s.reAnswered_inner t
  | .clearBackBeforeAnswer => s.clearBackBeforeAnswer_inner t
  | .releaseComplete => .refl s
  | .clearForward => s.clearForward_inner t

theorem State.ackTimedOut_inner (s : State) (t : TrunkNo) : Inner s (s.ackTimedOut t) := by
  have h := s.mapTrunk_inner t (fun r => { r with cause := some .ackTimeout })
    (.of_same rfl rfl rfl rfl rfl ⟨rfl, rfl⟩ rfl rfl rfl)
  unfold State.ackTimedOut
  dsimp only
  generalize s.mapTrunk t (fun r => { r with cause := some .ackTimeout }) = a at h ⊢
  exact ((h.trans (a.endRegisterWork_inner t _)).trans (State.endCall_inner _ true t _)).trans
    (State.enterFailed_inner _ t _ _)

theorem State.releaseTimedOut_inner (s : State) (t : TrunkNo) : Inner s (s.releaseTimedOut t) := by
  unfold State.releaseTimedOut
  exact (s.endCall_inner true t _).trans (State.enterFailed_inner _ t _ _)

theorem State.failByHoldLimit_inner (s : State) (t : TrunkNo) : Inner s (s.failByHoldLimit t) := by
  unfold State.failByHoldLimit
  split_ifs
  · exact (((s.stopRegister_inner false t).trans (State.dissolveForHoldLimit_inner _ t)).trans
      (State.endCall_inner _ false t _)).trans (State.enterFailed_inner _ t _ _)
  · exact .refl s

/-! ### The decadic engine -/

theorem State.setSender_inner (s : State) (t : TrunkNo) (c : DecadicSender) : Inner s (s.setSender t c) :=
  s.mapTrunk_inner t _ (.of_same rfl rfl rfl rfl rfl ⟨rfl, rfl⟩ rfl rfl rfl)

theorem State.breakSent_inner (s : State) (t : TrunkNo) (c : DecadicSender) : Inner s (s.breakSent t c) :=
  (s.sendSignal_inner t _).trans (State.setSender_inner _ t _)

theorem State.makeSent_inner (s : State) (t : TrunkNo) (c : DecadicSender) : Inner s (s.makeSent t c) := by
  have h : Inner s (s.mapTrunk t fun r => { r with send := { r.send with pos := r.send.pos + 1 } }) :=
    s.mapTrunk_inner t _ (.of_same rfl rfl rfl rfl rfl ⟨rfl, rfl⟩ rfl rfl rfl)
  unfold State.makeSent
  dsimp only
  split_ifs
  · exact s.startBreak_inner t c _
  · split
    · exact (h.trans (State.recordDigit_inner _ t _)).trans (State.setSender_inner _ t _)
    · exact h.trans (State.setSender_inner _ t _)

theorem State.pauseEnded_inner (s : State) (t : TrunkNo) (c : DecadicSender) : Inner s (s.pauseEnded t c) := by
  unfold State.pauseEnded
  split
  · exact s.startBreak_inner t c _
  · split_ifs
    · exact s.outOutcome_inner t _
    · exact s.setSender_inner t _

theorem State.mapReceiver_inner (s : State) (t : TrunkNo) (f : DecadicReceiver → DecadicReceiver) :
    Inner s (s.mapReceiver t f) := s.mapTrunk_inner t _ (.of_same rfl rfl rfl rfl rfl ⟨rfl, rfl⟩ rfl rfl rfl)

theorem State.endRejected_inner (s : State) (t : TrunkNo) : Inner s (s.endRejected t) := s.mapReceiver_inner t _

theorem State.reportDistortion_inner (s : State) (t : TrunkNo) : Inner s (s.reportDistortion t) := by
  unfold State.reportDistortion
  split
  · exact s.submit_inner _ _
  · exact .refl s

theorem State.rejectDigit_inner (s : State) (t : TrunkNo) : Inner s (s.rejectDigit t) :=
  (s.reportDistortion_inner t).trans (State.mapReceiver_inner _ t _)

theorem State.afterDigit_inner (s : State) (t : TrunkNo) : Inner s (s.afterDigit t) := by
  unfold State.afterDigit
  split
  · exact s.completeIn_inner t
  · exact s.rejectIn_inner t _
  · exact s.mapReceiver_inner t _

theorem State.giveDigit_inner (s : State) (t : TrunkNo) (d : Digit) : Inner s (s.giveDigit t d) := by
  unfold State.giveDigit
  dsimp only
  generalize hm : (s.mapReceiver t fun c => { c with phase := .between, pulses := 0, digitEnd := none }) = a
  have ha : Inner s a := hm ▸ s.mapReceiver_inner t _
  split_ifs
  · exact ha.trans (State.rejectIn_inner _ t _)
  · have hb : Inner s (a.storeDigit t d) := ha.trans (State.storeDigit_inner _ t d)
    split
    · exact ((hb.trans (State.dissolve_inner _ _ _ _ _)).trans (State.inOutcome_inner _ t _)).trans
        (State.forcedClear_inner _ _ _)
    · have hc : Inner s ((a.storeDigit t d).relayDigit t d) := hb.trans (State.relayDigit_inner _ t d)
      split
      · exact (hc.trans (State.showProgress_inner _ t)).trans (State.afterDigit_inner _ t)
      · exact (hc.trans (State.runAnalysis_inner _ t)).trans (State.afterDigit_inner _ t)

theorem State.endDigit_inner (s : State) (t : TrunkNo) (c : DecadicReceiver) : Inner s (s.endDigit t c) := by
  unfold State.endDigit
  split
  · exact s.giveDigit_inner t _
  · exact (s.reportDistortion_inner t).trans (State.endRejected_inner _ t)

theorem State.beginDigit_inner (s : State) (t : TrunkNo) : Inner s (s.beginDigit t) := s.mapReceiver_inner t _

theorem State.handBreak_inner (s : State) (t : TrunkNo) : Inner s (s.handBreak t) := by
  unfold State.handBreak
  dsimp only
  split
  · split
    · exact .refl s
    · have h := s.mapReceiver_inner t fun c =>
        { c with line := .broken, since := 0, clearRec := some (s.profileOf t).clearRecognition }
      split
      · exact h
      · split
        · exact h.trans (State.beginDigit_inner _ t)
        · split_ifs
          · exact (h.trans (State.rejectDigit_inner _ t)).trans (State.mapReceiver_inner _ t _)
          · exact (h.trans (State.endDigit_inner _ t _)).trans (State.beginDigit_inner _ t)
          · exact h.trans (State.mapReceiver_inner _ t _)
        · split_ifs
          · exact (h.trans (State.endRejected_inner _ t)).trans (State.beginDigit_inner _ t)
          · exact h.trans (State.mapReceiver_inner _ t _)
  · split
    · exact .refl s
    · exact s.mapTrunk_inner t _ (.of_same rfl rfl rfl rfl rfl ⟨rfl, rfl⟩ rfl rfl rfl)
  · exact .refl s

theorem State.judgeBreak_inner (s : State) (t : TrunkNo) (n : Nat) : Inner s (s.judgeBreak t n) := by
  unfold State.judgeBreak
  dsimp only
  split_ifs
  · exact s.rejectDigit_inner t
  · exact s.mapReceiver_inner t _

theorem State.handMake_inner (s : State) (t : TrunkNo) : Inner s (s.handMake t) := by
  unfold State.handMake
  dsimp only
  split
  · split_ifs
    · exact .refl s
    · exact s.clearForward_inner t
    · exact s.mapReceiver_inner t _
    · exact (s.mapReceiver_inner t _).trans (State.clearForward_inner _ t)
    · exact (s.mapReceiver_inner t _).trans (State.judgeBreak_inner _ t _)
    · exact s.mapReceiver_inner t _
  · split_ifs
    · exact .refl s
    · exact s.clearForward_inner t
    · exact s.mapTrunk_inner t _ (.of_same rfl rfl rfl rfl rfl ⟨rfl, rfl⟩ rfl rfl rfl)
  · exact .refl s

theorem State.digitWaitEnded_inner (s : State) (t : TrunkNo) (k : DigitWaitKind) : Inner s (s.digitWaitEnded t k) := by
  have h := s.mapReceiver_inner t fun c => { c with wait := none }
  unfold State.digitWaitEnded
  dsimp only
  split_ifs
  · exact h.trans (State.completeIn_inner _ t)
  · exact h.trans (State.rejectIn_inner _ t _)

theorem State.decadicHoldEnd_inner (s : State) (t : TrunkNo) : Inner s (s.decadicHoldEnd t) := by
  unfold State.decadicHoldEnd
  split
  · split_ifs
    · exact (s.sendSignal_inner t _).trans (State.setSender_inner _ t _)
    · exact s.setSender_inner t _
    · exact .refl s
  · split_ifs
    · exact s.mapReceiver_inner t _
    · exact .refl s
  · exact .refl s

/-! ### The interlocked tone engine -/

theorem State.endSender_inner (s : State) (t : TrunkNo) (o : RegOutcome) : Inner s (s.endSender t o) :=
  (s.endTone_inner true t).trans (State.outOutcome_inner _ t o)

theorem State.senderRecognised_inner (s : State) (t : TrunkNo) (c : ToneSender) (b : BackwardSignal) :
    Inner s (s.senderRecognised t c b) := by
  unfold State.senderRecognised
  split_ifs
  · exact .refl s
  · exact (s.stopSignal_inner t).trans (State.setTone_inner _ t _)

theorem State.acknowledgeItem_inner (s : State) (t : TrunkNo) (i : Option SendItem) :
    Inner s (s.acknowledgeItem t i) := by
  unfold State.acknowledgeItem
  split
  · split_ifs
    · rename_i pos _
      have h : Inner s (s.mapTrunk t fun r => { r with send := { r.send with pos := pos + 1 } }) :=
        s.mapTrunk_inner t _ (.of_same rfl rfl rfl rfl rfl ⟨rfl, rfl⟩ rfl rfl rfl)
      dsimp only
      split
      · exact h.trans (State.recordDigit_inner _ t _)
      · exact h
    · exact .refl s
  · exact .refl s

theorem State.senderActs_inner (s : State) (t : TrunkNo) (c : ToneSender) (b : BackwardSignal) :
    Inner s (s.senderActs t c b) := by
  cases b
  · exact (s.acknowledgeItem_inner t _).trans (State.chooseItem_inner _ t c)
  · unfold State.senderActs
    dsimp only
    split
    · exact s.sendItem_inner t c _
    · exact s.endSender_inner t _
  · exact (s.acknowledgeItem_inner t _).trans (State.sendItem_inner _ t c _)
  · exact s.endSender_inner t _
  · exact s.endSender_inner t _
  · exact s.endSender_inner t _

theorem State.senderCeased_inner (s : State) (t : TrunkNo) (c : ToneSender) : Inner s (s.senderCeased t c) := by
  unfold State.senderCeased
  split
  · exact s.senderActs_inner t c _
  · exact .refl s

theorem State.respond_inner (s : State) (t : TrunkNo) (c : ToneReceiver) (b : BackwardSignal) :
    Inner s (s.respond t c b) := (s.startSignal_inner t _).trans (State.setTone_inner _ t _)

theorem State.respondMore_inner (s : State) (t : TrunkNo) (c : ToneReceiver) (w : Bool) :
    Inner s (s.respondMore t c w) := by
  unfold State.respondMore
  split_ifs
  · exact s.respond_inner t _ _
  · exact s.respond_inner t _ _

theorem State.respondReject_inner (s : State) (t : TrunkNo) (c : ToneReceiver) (k : Cause) :
    Inner s (s.respondReject t c k) := (s.respondOutcome_inner t c _).trans (State.inletGone_inner _ t)

theorem State.answerDigit_inner (s : State) (t : TrunkNo) (c : ToneReceiver) (w : Bool) :
    Inner s (s.answerDigit t c w) := by
  unfold State.answerDigit
  split
  · exact s.respondReject_inner t c _
  · split
    · exact (s.respondMore_inner t _ w).trans (State.completeInlet_inner _ t _)
    · split_ifs
      · exact s.respondMore_inner t _ true
      · exact s.respondOutcome_inner t c _
  · exact s.respondMore_inner t c w

theorem State.receiveDigit_inner (s : State) (t : TrunkNo) (c : ToneReceiver) (d : Digit) :
    Inner s (s.receiveDigit t c d) := by
  unfold State.receiveDigit
  split_ifs
  · exact s.respond_inner t c _
  · exact s.respondReject_inner t c _
  · have hb : Inner s (s.storeDigit t d) := s.storeDigit_inner t d
    dsimp only
    split
    · exact ((hb.trans (State.dissolve_inner _ _ _ _ _)).trans (State.respondOutcome_inner _ t c _)).trans
        (State.forcedClear_inner _ _ _)
    · have hc : Inner s ((s.storeDigit t d).relayDigit t d) := hb.trans (State.relayDigit_inner _ t d)
      split
      · exact (hc.trans (State.showProgress_inner _ t)).trans (State.answerDigit_inner _ t c _)
      · exact (hc.trans (State.runAnalysis_inner _ t)).trans (State.answerDigit_inner _ t c _)

theorem State.storeCategory_inner (s : State) (t : TrunkNo) (k : Category) : Inner s (s.storeCategory t k) := by
  have h : Inner s (s.mapTrunk t fun r =>
      { r with
        received := { r.received with category := some k }
        record := r.record.map fun x => { x with category := some k } }) := by
    refine s.mapTrunk_inner t _ ⟨⟨rfl, rfl, rfl, rfl, rfl, rfl, rfl⟩, fun ⟨ha, hb⟩ => ⟨ha, ?_⟩⟩
    intro x hx
    simp only [Option.map_eq_some_iff] at hx
    obtain ⟨x0, h0, rfl⟩ := hx
    have hx0 : x0.sound := hb x0 h0
    exact hx0
  unfold State.storeCategory
  dsimp only
  split_ifs
  · exact h.trans (State.showProgress_inner _ t)
  · exact h

theorem State.receiveEnd_inner (s : State) (t : TrunkNo) (c : ToneReceiver) : Inner s (s.receiveEnd t c) := by
  have h : Inner s (s.mapTrunk t fun r => { r with received := { r.received with endReceived := true } }) :=
    s.mapTrunk_inner t _ (.of_same rfl rfl rfl rfl rfl ⟨rfl, rfl⟩ rfl rfl rfl)
  unfold State.receiveEnd
  dsimp only
  split
  · split_ifs
    · exact h.trans (State.setTone_inner _ t _)
    · exact h.trans (State.respondReject_inner _ t c _)
    · exact (h.trans (State.setTone_inner _ t _)).trans (State.completeInlet_inner _ t _)
  · split_ifs
    · exact h.trans (State.respondReject_inner _ t c _)
    · split
      · exact h.trans (State.respondOutcome_inner _ t c _)
      · exact (h.trans (State.setTone_inner _ t _)).trans (State.showProgress_inner _ t)

theorem State.receiverRecognised_inner (s : State) (t : TrunkNo) (c : ToneReceiver) (f : ForwardSignal) :
    Inner s (s.receiverRecognised t c f) := by
  unfold State.receiverRecognised
  split_ifs
  · exact .refl s
  · dsimp only
    split
    · exact (s.storeCategory_inner t _).trans (State.respondOutcome_inner _ t _ _)
    · exact s.respondOutcome_inner t _ _
    · exact s.receiveDigit_inner t _ _
    · exact (s.storeCategory_inner t _).trans (State.respond_inner _ t _ _)
    · exact s.receiveEnd_inner t _
    · exact s.respondReject_inner t _ _

theorem State.receiverCeased_inner (s : State) (t : TrunkNo) (c : ToneReceiver) : Inner s (s.receiverCeased t c) := by
  unfold State.receiverCeased
  split
  · dsimp only
    split
    · exact (s.stopSignal_inner t).trans (State.pulseOutcome_inner _ t c _)
    · exact (s.stopSignal_inner t).trans (State.setTone_inner _ t _)
  · exact s.endTone_inner true t
  · exact s.setTone_inner t _
  · exact .refl s
  · exact .refl s

theorem State.receiverWaitEnded_inner (s : State) (t : TrunkNo) (c : ToneReceiver) (k : ToneTimerKind) :
    Inner s (s.receiverWaitEnded t c k) := by
  unfold State.receiverWaitEnded
  dsimp only
  split
  · exact s.pulseOutcome_inner t _ _
  · split
    · exact (s.setTone_inner t _).trans (State.completeInlet_inner _ t _)
    · exact s.pulseOutcome_inner t _ _
    · exact (s.inletGone_inner t).trans (State.pulseOutcome_inner _ t _ _)

theorem State.receiverInterlockEnded_inner (s : State) (t : TrunkNo) (c : ToneReceiver) :
    Inner s (s.receiverInterlockEnded t c) := by
  have h := s.endTone_inner true t
  unfold State.receiverInterlockEnded
  dsimp only
  split_ifs
  · exact h.trans (State.rejectIn_inner _ t _)
  · exact h

theorem State.toneEvent_inner (s : State) (t : TrunkNo) (e : ToneEvent) : Inner s (s.toneEvent t e) := by
  unfold State.toneEvent
  split
  · exact s.senderRecognised_inner t _ _
  · exact s.senderCeased_inner t _
  · exact s.receiverRecognised_inner t _ _
  · exact s.receiverCeased_inner t _
  · exact .refl s

theorem State.decideUnitBlock_inner (s : State) (u : UnitNo) (t : TrunkNo) (role : UnitRole) (b : EndedBlock) :
    Inner s (s.decideUnitBlock u t role b) := by
  unfold State.decideUnitBlock
  dsimp only
  split
  · exact (s.mapUnit_inner u _).trans (State.toneEvent_inner _ t _)
  · exact s.mapUnit_inner u _

theorem State.measureBlock_inner (s : State) (u : UnitNo) (t : TrunkNo) (n m : Nat) (b : EndedBlock) :
    Inner s (s.measureBlock u t n m b) := by
  have h := s.mapUnit_inner u fun k => { k.addBlock b with status := .measuring t n (m + 1) }
  unfold State.measureBlock
  dsimp only
  split_ifs
  · exact (h.trans (State.reportMeasurement_inner _ u t _ _)).trans (State.freeUnit_inner _ _ u)
  · exact h

theorem State.blockEnded_inner (s : State) (u : UnitNo) (b : EndedBlock) : Inner s (s.blockEnded u b) := by
  have h := s.mapUnit_inner u fun k => { k with ended := none }
  unfold State.blockEnded
  dsimp only
  split_ifs
  · exact h
  · split
    · exact h
    · exact h.trans (State.decideUnitBlock_inner _ u _ _ b)
    · exact h.trans (State.measureBlock_inner _ u _ _ _ b)

/-! ### Decoding -/

theorem State.decodeLine_inner (s : State) (t : TrunkNo) : Inner s (s.decodeLine t) := by
  unfold State.decodeLine
  split
  · exact s.decodeIdle_inner t
  · exact s.decodeClearing_inner t
  · split
    · exact .refl s
    · exact s.lineAnomaly_inner t _
    · rename_i sig action _
      have h := s.noteIdle_inner t sig
      dsimp only
      split_ifs
      · exact h.trans (State.handBreak_inner _ t)
      · exact h.trans (State.handMake_inner _ t)
      · exact h.trans (State.act_inner _ t action)

end Sys2Proof.Machine
end

