-- ==== Sys2Proof/Laws/Pool.lean ====
section
/-! SUPPORT. What the tone unit pool can do to the trunks, said once: a grant, a freeing or a request changes no more of
a trunk's record than the unit it holds and its interlocked tone engine's context (`PoolWork s s'`), whichever trunk a
unit is handed on to. -/

namespace Sys2Proof.Machine

/-- What a trunk keeps while the pool works. -/
def Trunk.SameCall (r r' : Trunk) : Prop := r' = { r with unit := r'.unit, tone := r'.tone }

/-- `s'` comes from `s` by the work of the tone unit pool. -/
structure PoolWork (s s' : State) : Prop where
  trunks : ∀ t, (s.trunk t).SameCall (s'.trunk t)
  sequence : s'.sequence = s.sequence
  traffic : s'.traffic = s.traffic

theorem Trunk.SameCall.trans {a b c : Trunk} (h : a.SameCall b) (k : b.SameCall c) : a.SameCall c := by
  unfold Trunk.SameCall at *
  rw [k, h]

theorem PoolWork.refl (s : State) : PoolWork s s := ⟨fun _ => rfl, rfl, rfl⟩

theorem PoolWork.trans {a b c : State} (h : PoolWork a b) (k : PoolWork b c) : PoolWork a c :=
  ⟨fun t => (h.trunks t).trans (k.trunks t), k.sequence.trans h.sequence, k.traffic.trans h.traffic⟩

theorem PoolWork.of_trunks {s s' : State} (h : s'.trunks = s.trunks) (k : s'.sequence = s.sequence)
    (l : s'.traffic = s.traffic) : PoolWork s s' := ⟨fun t => by rw [State.trunk_congr h]; rfl, k, l⟩

theorem State.mapTrunk_pool (s : State) (t : TrunkNo) (f : Trunk → Trunk) (h : (s.trunk t).SameCall (f (s.trunk t))) :
    PoolWork s (s.mapTrunk t f) :=
  ⟨fun u => by
    by_cases hu : u = t
    · subst hu; simpa using h
    · rw [State.mapTrunk_trunk_ne _ _ hu]; rfl, rfl, rfl⟩

theorem State.mapUnit_pool (s : State) (u : UnitNo) (f : ToneUnit → ToneUnit) : PoolWork s (s.mapUnit u f) :=
  .of_trunks rfl rfl rfl

theorem State.submit_pool (s : State) (t : Option TrunkNo) (b : ReportBody) : PoolWork s (s.submit t b) :=
  .of_trunks (by simp) (by simp) (by simp)

theorem State.startSignal_pool (s : State) (t : TrunkNo) (sig : ToneSignal) : PoolWork s (s.startSignal t sig) := by
  unfold State.startSignal
  split
  · exact .refl _
  · exact s.mapUnit_pool _ _

theorem State.setTone_pool (s : State) (t : TrunkNo) (c : ToneContext) : PoolWork s (s.setTone t c) :=
  s.mapTrunk_pool t _ rfl

theorem State.sendItem_pool (s : State) (t : TrunkNo) (c : ToneSender) (i : SendItem) : PoolWork s (s.sendItem t c i) :=
  (s.startSignal_pool t _).trans (State.setTone_pool _ _ _)

theorem State.chooseItem_pool (s : State) (t : TrunkNo) (c : ToneSender) : PoolWork s (s.chooseItem t c) := by
  unfold State.chooseItem
  split
  · exact s.sendItem_pool _ _ _
  · exact s.setTone_pool _ _

theorem State.grantCall_pool (s : State) (u : UnitNo) (t : TrunkNo) (role : UnitRole) :
    PoolWork s (s.grantCall u t role) := by
  have h := ((s.mapUnit_pool u fun _ => { status := .signalling t role }).trans
    (State.mapTrunk_pool _ t (fun r => { r with unit := some { unit := u, role := role } }) rfl))
  cases role
  · exact h.trans (State.chooseItem_pool _ _ _)
  · exact h.trans (State.setTone_pool _ _ _)

theorem State.withCallQueue_pool (s : State) (q : List CallWait) : PoolWork s (s.withCallQueue q) := .of_trunks rfl rfl rfl

theorem State.withTestQueue_pool (s : State) (q : List TestWait) : PoolWork s (s.withTestQueue q) := .of_trunks rfl rfl rfl

theorem State.grantTest_pool (s : State) (u : UnitNo) (t : TrunkNo) (n : Nat) : PoolWork s (s.grantTest u t n) :=
  s.mapUnit_pool _ _

theorem State.handOn_pool (s : State) (u : UnitNo) : PoolWork s (s.handOn u) := by
  unfold State.handOn
  split
  · exact (s.withCallQueue_pool _).trans (State.grantCall_pool _ _ _ _)
  · split
    · split
      · exact .refl _
      · exact (s.withTestQueue_pool _).trans (State.grantTest_pool _ _ _ _)
    · exact .refl _

theorem State.freeUnit_pool (s : State) (b : Bool) (u : UnitNo) : PoolWork s (s.freeUnit b u) := by
  unfold State.freeUnit
  dsimp only
  split
  · exact (s.mapUnit_pool _ _).trans (State.handOn_pool _ _)
  · exact s.mapUnit_pool _ _

theorem State.endTone_pool (s : State) (b : Bool) (t : TrunkNo) : PoolWork s (s.endTone b t) := by
  have h := s.mapTrunk_pool t (fun r => { r with tone := none, unit := none }) rfl
  unfold State.endTone
  dsimp only
  split
  · exact h
  · exact h.trans (State.freeUnit_pool _ _ _)

theorem State.leaveQueue_pool (s : State) (t : TrunkNo) : PoolWork s (s.leaveQueue t) := s.withCallQueue_pool _

theorem State.reportMeasurement_pool (s : State) (u : UnitNo) (t : TrunkNo) (x : TestStatus) (n : Nat) :
    PoolWork s (s.reportMeasurement u t x n) := s.submit_pool _ _

theorem State.grantOrQueue_pool (s : State) (t : TrunkNo) (role : UnitRole) : PoolWork s (s.grantOrQueue t role) := by
  unfold State.grantOrQueue
  split
  · exact s.grantCall_pool _ _ _
  · exact (s.withCallQueue_pool _).trans (State.submit_pool _ _ _)

theorem State.callRequest_pool (s : State) (t : TrunkNo) (role : UnitRole) : PoolWork s (s.callRequest t role) := by
  unfold State.callRequest
  split
  · exact (s.reportMeasurement_pool _ _ _ _).trans (State.grantCall_pool _ _ _ _)
  · split
    · exact ((s.withTestQueue_pool _).trans (State.submit_pool _ _ _)).trans (State.grantOrQueue_pool _ _ _)
    · exact s.grantOrQueue_pool _ _

theorem foldl_pool {α : Type} (f : State → α → State) (hf : ∀ s x, PoolWork s (f s x)) (l : List α) (s : State) :
    PoolWork s (l.foldl f s) := by
  induction l generalizing s with
  | nil => exact .refl _
  | cons x xs ih => exact (hf s x).trans (ih _)

theorem State.serveTests_pool (s : State) : PoolWork s s.serveTests := by
  refine foldl_pool _ (fun s u => ?_) _ _
  split
  · split
    · exact (s.withTestQueue_pool _).trans (State.grantTest_pool _ _ _ _)
    · exact .refl _
  · exact .refl _

theorem State.abortMeasurements_pool (s : State) : PoolWork s s.abortMeasurements := by
  refine foldl_pool _ (fun s u => ?_) _ _
  split
  · exact (s.reportMeasurement_pool _ _ _ _).trans (State.freeUnit_pool _ _ _)
  · exact .refl _

end Sys2Proof.Machine
end

