-- ==== Sys2Proof/Laws/Trunks.lean ====
section
/-! SUPPORT. What the shared operations of the trunk supervisor leave in every trunk's record, one lemma for each: the
record of the trunk they act on, and that no other trunk changes but for a tone unit handed on to it. -/

namespace Sys2Proof.Machine

/-! ### Loops over the trunks -/

/-- A loop over distinct trunks, seen from one of them: what comes before its turn and what comes after. `R` holds
between states that differ by the turns of other trunks. -/
theorem foldl_split {R : State → State → Prop} (hr : ∀ s, R s s) (ht : ∀ a b c, R a b → R b c → R a c)
    {f : State → TrunkNo → State} {t : TrunkNo} (hs : ∀ s k, k ≠ t → R s (f s k)) {l : List TrunkNo} (hl : l.Nodup)
    (hm : t ∈ l) (s : State) : ∃ m, R s m ∧ R (f m t) (l.foldl f s) := by
  have h0 : ∀ (l : List TrunkNo) (s : State), t ∉ l → R s (l.foldl f s) := by
    intro l
    induction l with
    | nil => intro s _; exact hr s
    | cons x l ih => intro s h; exact ht _ _ _ (hs s x fun e => h (by simp [e])) (ih _ fun e => h (by simp [e]))
  induction l generalizing s with
  | nil => simp at hm
  | cons x l ih =>
    obtain ⟨hx, hl⟩ := List.nodup_cons.mp hl
    by_cases e : t = x
    · subst e; exact ⟨s, hr s, h0 l _ hx⟩
    · obtain ⟨m, h1, h2⟩ := ih hl (by simpa [e] using hm) (f s x)
      exact ⟨m, ht _ _ _ (hs s x (Ne.symm e)) h1, h2⟩

/-- The same for a loop over every trunk. -/
theorem State.forTrunks_split {R : State → State → Prop} (hr : ∀ s, R s s) (ht : ∀ a b c, R a b → R b c → R a c)
    {f : State → TrunkNo → State} (t : TrunkNo) (hs : ∀ s k, k ≠ t → R s (f s k)) (s : State) :
    ∃ m, R s m ∧ R (f m t) (s.forTrunks f) :=
  foldl_split hr ht hs (List.nodup_finRange 32) (List.mem_finRange t) s

/-! ### Simple updates -/

/-- Units are granted for tests alone at hold end: no trunk's record changes (R101). -/
theorem State.serveTests_trunk (s : State) (t : TrunkNo) : s.serveTests.trunk t = s.trunk t := by
  unfold State.serveTests State.forUnits
  generalize List.finRange 8 = l
  induction l generalizing s with
  | nil => rfl
  | cons x l ih =>
    simp only [List.foldl_cons]
    rw [ih]
    split
    · split <;> rfl
    · rfl

theorem State.enter_trunk (s : State) (t u : TrunkNo) (st : TrunkState) : (s.enter t st).trunk u =
    if u = t then { s.trunk t with
      state := st, sentCode := sentCodeOf (s.profileOf t).codes (s.trunk t).role st } else s.trunk u := by
  simp only [State.enter, State.mapTrunk_trunk_at]

theorem State.enter_profileOf (s : State) (t u : TrunkNo) (st : TrunkState) :
    (s.enter t st).profileOf u = s.profileOf u := s.mapTrunk_profileOf t u _ rfl

theorem State.closeRecord_trunk (s : State) (t u : TrunkNo) (c : Cause) : (s.closeRecord t c).trunk u =
    if u = t then { s.trunk t with record := none } else s.trunk u := by
  unfold State.closeRecord
  split
  · rename_i hh
    split_ifs with h
    · subst h
      exact (by rw [← hh] : s.trunk u = { s.trunk u with record := none })
    · rfl
  · simp only [State.submit_trunk, State.mapTrunk_trunk_at]

/-! ### The end of register work and of a call -/

/-- A trunk with another unit and another interlocked tone engine context. -/
def Trunk.withTone (r r' : Trunk) : Trunk := { r with unit := r'.unit, tone := r'.tone }

theorem State.stopRegister_trunk (s : State) (b : Bool) (t u : TrunkNo) : (s.stopRegister b t).trunk u =
    (if u = t then { s.trunk t with decadic := none, lcr := { (s.trunk t).lcr with mode := .line } }
      else s.trunk u).withTone ((s.stopRegister b t).trunk u) := by
  have h := ((s.mapTrunk t fun r => { r with decadic := none }).endTone_pool b t).trunks u
  unfold Trunk.SameCall at h
  unfold State.stopRegister State.setFilter State.leaveQueue Trunk.withTone
  simp only [State.mapTrunk_trunk_at, State.withCallQueue_trunk]
  simp only [State.mapTrunk_trunk_at] at h
  split_ifs with hu
  · subst hu; rw [if_pos rfl] at h; rw [h]
  · rw [if_neg hu] at h; rw [h]

theorem State.endCall_trunk (s : State) (b : Bool) (t u : TrunkNo) (c : Cause) : (s.endCall b t c).trunk u =
    (if u = t then { s.trunk t with
        decadic := none, lcr := { (s.trunk t).lcr with mode := .line }, received := {}, send := {}, timer := none,
        callRef := none, standing := none, record := none }
      else s.trunk u).withTone ((s.endCall b t c).trunk u) := by
  have h := s.stopRegister_trunk b t u
  unfold State.endCall
  simp only [State.closeRecord_trunk, State.mapTrunk_trunk_at, if_true]
  split_ifs with hu
  · subst hu; rw [if_pos rfl] at h; rw [h]; rfl
  · rw [if_neg hu] at h; exact h

/-- A trunk that gives up its unit, and that waits for none, holds none. -/
theorem State.endTone_self (s : State) (b : Bool) (t : TrunkNo) (h : ∀ e ∈ s.callQueue, e.trunk ≠ t) :
    ((s.endTone b t).trunk t).unit = none ∧ ((s.endTone b t).trunk t).tone = none := by
  unfold State.endTone
  dsimp only
  split
  · simp
  · unfold State.freeUnit
    dsimp only
    split
    · unfold State.handOn
      split
      · rename_i e rest he
        have hne : t ≠ e.trunk := (h e (by
          have : s.callQueue = e :: rest := he
          simp [this])).symm
        unfold State.grantCall
        have keep : ∀ x : State, (x.chooseItem e.trunk { phase := .waiting, item := none, lastSent := none, noted := none, timer := none }).trunk t = x.trunk t := by
          intro x
          unfold State.chooseItem State.sendItem State.setTone
          split
          · rw [State.mapTrunk_trunk_ne _ _ hne]
            unfold State.startSignal
            split <;> rfl
          · rw [State.mapTrunk_trunk_ne _ _ hne]
        cases e.role
        · simp only [State.openSender, keep, State.mapTrunk_trunk_ne _ _ hne, State.mapUnit_trunk,
            State.withCallQueue_trunk, State.mapTrunk_trunk, and_self]
        · simp only [State.openReceiver, State.setTone, State.mapTrunk_trunk_ne _ _ hne, State.mapUnit_trunk,
            State.withCallQueue_trunk, State.mapTrunk_trunk, and_self]
      · split
        · split <;> simp [State.grantTest]
        · simp
    · simp

theorem State.stopRegister_self (s : State) (b : Bool) (t : TrunkNo) (h : ∀ e ∈ s.callQueue, e.trunk ≠ t) :
    ((s.stopRegister b t).trunk t).unit = none ∧ ((s.stopRegister b t).trunk t).tone = none := by
  have k := (s.mapTrunk t fun r => { r with decadic := none }).endTone_self b t h
  simpa [State.stopRegister, State.setFilter, State.leaveQueue] using k

/-! ### Relay links -/

theorem State.dissolve_trunk (s : State) (i o u : TrunkNo) (e : LinkEnding) (x : Option RegResult) :
    (s.dissolve i o e x).trunk u =
      if u = o ∨ u = i then { s.trunk u with link := none, linkRecord := none } else s.trunk u := by
  unfold State.dissolve
  simp only [State.submit_trunk, State.mapTrunk_trunk_at]
  by_cases h1 : u = o <;> by_cases h2 : o = i <;> by_cases h3 : u = i <;> simp_all

theorem State.dissolveForHoldLimit_trunk (s : State) (t u : TrunkNo) : (s.dissolveForHoldLimit t).trunk u =
    if (u = t ∧ (s.trunk t).link.isSome) ∨ ((s.trunk t).link.map (·.peer) = some u) then
      { s.trunk u with link := none, linkRecord := none }
    else s.trunk u := by
  unfold State.dissolveForHoldLimit
  rcases h : (s.trunk t).link with _ | ⟨p, _ | _⟩
  · simp
  · simp [State.dissolve_trunk, eq_comm, or_comm]
  · simp [State.dissolve_trunk, eq_comm]

/-- A trunk in no relay link has none to end. -/
theorem State.carryBack_unlinked (s : State) (t : TrunkNo) (o : RegOutcome) (h : (s.trunk t).link = none) :
    s.carryBack t o = s := by simp [State.carryBack, Trunk.inlet, h]

theorem State.inletGone_unlinked (s : State) (t : TrunkNo) (h : (s.trunk t).link = none) : s.inletGone t = s := by
  simp [State.inletGone, Trunk.outlet, h]

theorem State.endRegisterWork_unlinked (s : State) (t : TrunkNo) (o : RegOutcome) (h : (s.trunk t).link = none) :
    s.endRegisterWork t o = s.stopRegister true t := by
  have k : ((s.stopRegister true t).trunk t).link = none := by
    rw [State.stopRegister_trunk]; simpa [Trunk.withTone] using h
  unfold State.endRegisterWork
  rw [State.carryBack_unlinked _ _ _ k, State.inletGone_unlinked _ _ k]

/-! ### Entry to FAILED -/

theorem State.enterFailed_trunk (s : State) (t u : TrunkNo) (c : Cause) (r : Option CallRef) :
    (s.enterFailed t c r).trunk u =
      if u = t then { s.trunk t with
        cause := some c, state := .failed, sentCode := sentCodeOf (s.profileOf t).codes (s.trunk t).role .failed }
      else s.trunk u := by
  unfold State.enterFailed
  have h : ∀ (a b : State) (P : Prop) [Decidable P], (if P then a else b).trunk u = if P then a.trunk u else b.trunk u := by
    intro a b P _; split <;> rfl
  have hp : ∀ v, (s.mapTrunk t fun r => { r with cause := some c }).profileOf v = s.profileOf v :=
    fun v => s.mapTrunk_profileOf _ v _ rfl
  simp only [h, State.capture_trunk, State.countFor_trunk, State.submit_trunk, State.enter_trunk, State.mapTrunk_trunk_at,
    if_true, ite_self, hp]
  split_ifs <;> rfl

/-! ### Grants and outcomes -/

/-- The pool's work spares the other trunks. -/
theorem PoolWork.spares {s u : State} (h : PoolWork s u) (t : TrunkNo) : s.sparesOthers u t := fun k _ => h.trunks k
/-- An inner operation keeps the settings of the unit. -/
theorem Inner.keeps {s u : State} (i : Inner s u) : s.keepsSettings u :=
  ⟨⟨i.pending, i.tmb, i.hwi, i.profiles, i.analysis, i.sgtx, i.ltx⟩, fun k => let h := (i.trunks k).kept
    ⟨h.1, h.2.1, h.2.2.1, h.2.2.2.1, h.2.2.2.2.2.1, h.2.2.2.2.2.2⟩⟩

theorem State.startSignal_trunk (s : State) (t u : TrunkNo) (x : ToneSignal) : (s.startSignal t x).trunk u = s.trunk u := by
  unfold State.startSignal; split <;> rfl
theorem State.setTone_trunk (s : State) (t u : TrunkNo) (c : ToneContext) : (s.setTone t c).trunk u = if u = t then { s.trunk t with tone := some c } else s.trunk u := by
  unfold State.setTone; rw [State.mapTrunk_trunk_at]
theorem State.chooseItem_trunk (s : State) (t u : TrunkNo) (c : ToneSender) : ∃ k, (s.chooseItem t c).trunk u = if u = t then { s.trunk t with tone := some k } else s.trunk u := by
  unfold State.chooseItem State.sendItem
  split
  · exact ⟨_, by rw [State.setTone_trunk]; simp only [State.startSignal_trunk]; rfl⟩
  · exact ⟨_, by rw [State.setTone_trunk]⟩

/-- A grant for signalling changes the trunk's unit and context alone. -/
theorem State.grantCall_trunk (s : State) (v : UnitNo) (t u : TrunkNo) (r : UnitRole) : ∃ k, (s.grantCall v t r).trunk u = if u = t then { s.trunk t with unit := some ⟨v, r⟩, tone := some k } else s.trunk u := by
  unfold State.grantCall
  cases r
  · obtain ⟨k, hk⟩ := State.chooseItem_trunk ((s.mapUnit v fun _ => { status := .signalling t .sender }).mapTrunk t fun r => { r with unit := some { unit := v, role := .sender } }) t u { phase := .waiting, item := none, lastSent := none, noted := none, timer := none }
    refine ⟨k, ?_⟩
    simp only [State.openSender]
    rw [hk]
    simp only [State.mapTrunk_trunk_at, State.mapUnit_trunk, if_true]
    split_ifs <;> rfl
  · by_cases hu : u = t
    · subst hu
      simp only [State.openReceiver, State.setTone_trunk, State.mapTrunk_trunk_at, State.mapUnit_trunk, if_true]
      exact ⟨_, rfl⟩
    · simp only [State.openReceiver, State.setTone_trunk, State.mapTrunk_trunk_at, State.mapUnit_trunk, if_neg hu]
      exact ⟨.receiver ⟨.listening, none, false, false, false, none⟩, trivial⟩

/-- A call request ends in a grant or in the call wait queue (R90). -/
theorem State.callRequest_got (s : State) (t : TrunkNo) (r : UnitRole) : (∃ v, ((s.callRequest t r).trunk t).unit = some { unit := v, role := r }) ∨ ∃ e ∈ (s.callRequest t r).callQueue, e.trunk = t ∧ e.role = r := by
  have hq : ∀ s : State, (∃ v, ((s.grantOrQueue t r).trunk t).unit = some { unit := v, role := r }) ∨ ∃ e ∈ (s.grantOrQueue t r).callQueue, e.trunk = t ∧ e.role = r := by
    intro s
    unfold State.grantOrQueue
    split
    · rename_i v _
      left; obtain ⟨k, hk⟩ := State.grantCall_trunk s v t t r
      exact ⟨v, by rw [hk]; simp⟩
    · right; exact ⟨_, by simp [State.withCallQueue]; right; rfl, rfl, rfl⟩
  unfold State.callRequest
  split
  · rename_i v d _
    left; obtain ⟨k, hk⟩ := State.grantCall_trunk (s.reportMeasurement v t .abortedSeized d) v t t r
    exact ⟨v, by rw [hk]; simp⟩
  · split
    · exact hq _
    · exact hq _

/-- R58: COMPLETE in IN-SELECTING. -/
theorem State.inOutcome_complete (s : State) (t u : TrunkNo) (h : (s.trunk t).state = .inSelecting) : (s.inOutcome t .complete).trunk u =
   if u = t then { s.trunk t with decadic := (s.trunk t).decadic.map DecadicContext.toWatch, lcr := { (s.trunk t).lcr with mode := .line }, state := .inWaitAnswer, sentCode := sentCodeOf (s.profileOf t).codes (s.trunk t).role .inWaitAnswer } else s.trunk u := by
  unfold State.inOutcome
  rw [if_neg (by simp [h])]
  have e : ∀ (x : State), ((x.mapTrunk t fun r => { r with decadic := r.decadic.map DecadicContext.toWatch }).setFilter t .line).profileOf t = x.profileOf t := by
    intro x
    unfold State.setFilter
    rw [State.mapTrunk_mapTrunk]
    exact State.mapTrunk_profileOf _ _ _ _ rfl
  simp only [State.submit_trunk, State.enter_trunk, e]
  simp only [State.setFilter, State.mapTrunk_trunk_at, State.leaveQueue, State.withCallQueue_trunk, State.withCallQueue_profileOf, if_true]
  split_ifs <;> rfl

end Sys2Proof.Machine
end

