-- ==== Sys2Proof/Laws/Calls.lean ====
section
/-! SUPPORT. What the end of register work and of a call leaves outside the trunk's record, what a capture leaves, and
that reports commute with changes of trunk records. -/

namespace Sys2Proof.Machine

/-! ### Order of reports and updates -/

theorem State.submit_mapTrunk (s : State) (x : Option TrunkNo) (b : ReportBody) (t : TrunkNo) (f : Trunk → Trunk) :
    (s.submit x b).mapTrunk t f = (s.mapTrunk t f).submit x b := by
  have hc : ∀ (s : State) (k : FaultKind), (s.capture k x).mapTrunk t f = (s.mapTrunk t f).capture k x := by
    intro s k
    unfold State.capture
    simp only [State.mapTrunk_fault]
    split <;> rfl
  by_cases h1 : b.isCondition = true
  · simp only [State.submit, if_pos h1]; rfl
  by_cases h2 : s.rqa.entries.length < Config.reportRoom
  · simp only [State.submit, if_neg h1, State.mapTrunk_rqa, State.mapTrunk_tmb, if_pos h2]; exact (if_pos h2).symm
  · simp only [State.submit, if_neg h1, State.mapTrunk_rqa, State.mapTrunk_tmb, if_neg h2, hc]; exact (if_neg h2).symm

theorem State.countFor_mapTrunk (s : State) (t k : TrunkNo) (f : Traffic → Traffic) (g : Trunk → Trunk)
    (h : (g (s.trunk k)).group = (s.trunk k).group) : (s.mapTrunk k g).countFor t f = (s.countFor t f).mapTrunk k g := by
  have e : ((s.mapTrunk k g).trunk t).group = (s.trunk t).group := by
    rw [State.mapTrunk_trunk_at]
    split_ifs with hk
    · subst hk; exact h
    · rfl
  have key : ∀ x y : GroupNo, x = y →
      ({ s.mapTrunk k g with traffic := (s.mapTrunk k g).traffic.set x (f ((s.mapTrunk k g).traffic.get x)) } : State) =
      ({ s with traffic := s.traffic.set y (f (s.traffic.get y)) } : State).mapTrunk k g := by
    rintro x _ rfl; rfl
  exact key _ _ e

/-! ### Captures -/

theorem State.capture_held (s : State) (k : FaultKind) (t : Option TrunkNo) {f : CapturedFault}
    (h : s.fault.held = some f) : (s.capture k t).fault.held = some f ∧ (s.capture k t).fault.further = true := by
  simp [State.capture, h]

theorem State.capture_occupies (s : State) (k : FaultKind) (t : Option TrunkNo) :
    (s.capture k t).fault.held.isSome = true := by
  unfold State.capture
  split
  · rfl
  · rename_i hx; simp [hx]

/-! ### Units handed on -/

/-- Opening a context leaves the call wait queue, the reports and the captures. -/
theorem State.grantCall_misc (s : State) (v : UnitNo) (t : TrunkNo) (r : UnitRole) :
    (s.grantCall v t r).callQueue = s.callQueue ∧ (s.grantCall v t r).rqa = s.rqa ∧
      (s.grantCall v t r).fault = s.fault := by
  unfold State.grantCall
  cases r
  · simp only [State.openSender, State.chooseItem, State.sendItem, State.setTone, State.startSignal]
    split
    · split <;> exact ⟨rfl, rfl, rfl⟩
    · exact ⟨rfl, rfl, rfl⟩
  · exact ⟨rfl, rfl, rfl⟩

theorem State.handOn_misc (s : State) (v : UnitNo) : (s.handOn v).rqa = s.rqa ∧ (s.handOn v).fault = s.fault := by
  unfold State.handOn
  split
  · exact ⟨(State.grantCall_misc _ _ _ _).2.1, (State.grantCall_misc _ _ _ _).2.2⟩
  · split
    · split <;> exact ⟨rfl, rfl⟩
    · exact ⟨rfl, rfl⟩

theorem State.endTone_misc (s : State) (b : Bool) (t : TrunkNo) :
    (s.endTone b t).rqa = s.rqa ∧ (s.endTone b t).fault = s.fault := by
  unfold State.endTone State.freeUnit
  dsimp only
  split
  · exact ⟨rfl, rfl⟩
  · split
    · exact State.handOn_misc _ _
    · exact ⟨rfl, rfl⟩

/-! ### The end of register work and of a call -/

theorem State.stopRegister_misc (s : State) (b : Bool) (t : TrunkNo) :
    (s.stopRegister b t).traffic = s.traffic ∧ (s.stopRegister b t).sequence = s.sequence ∧
      (s.stopRegister b t).rqa = s.rqa ∧ (s.stopRegister b t).fault = s.fault := by
  unfold State.stopRegister State.setFilter State.leaveQueue
  simp only [State.mapTrunk_sequence, State.mapTrunk_traffic, State.withCallQueue_sequence,
    State.withCallQueue_traffic, State.mapTrunk_rqa, State.withCallQueue_rqa, State.mapTrunk_fault,
    State.withCallQueue_fault, (State.endTone_pool _ _ _).sequence, (State.endTone_pool _ _ _).traffic,
    (State.endTone_misc _ _ _).1, (State.endTone_misc _ _ _).2, and_self]

/-- No entry of the trunk stays in the call wait queue (R94). -/
theorem State.stopRegister_queue (s : State) (b : Bool) (t : TrunkNo) :
    ∀ e ∈ (s.stopRegister b t).callQueue, e.trunk ≠ t := by
  unfold State.stopRegister State.setFilter State.leaveQueue
  simp [State.withCallQueue]

theorem State.closeRecord_reported (s : State) (t : TrunkNo) (c : Cause) {r : CallRecord}
    (h : (s.trunk t).record = some r) :
    (s.closeRecord t c).reported (some t) (.released { record := r, releaseTime := s.tmb.counter, cause := c }) := by
  unfold State.closeRecord
  rw [h]
  exact State.submit_reported _ _ rfl

theorem State.endCall_reported (s : State) (b : Bool) (t : TrunkNo) (c : Cause) {r : CallRecord}
    (h : (s.trunk t).record = some r) :
    (s.endCall b t c).reported (some t) (.released { record := r, releaseTime := s.tmb.counter, cause := c }) := by
  unfold State.endCall
  have e : s.tmb.counter = ((s.stopRegister b t).mapTrunk t fun r =>
      { r with received := {}, send := {}, timer := none, callRef := none, standing := none }).tmb.counter := by
    simp [(s.stopRegister_inner b t).tmb]
  rw [e]
  refine State.closeRecord_reported _ _ _ ?_
  rw [State.mapTrunk_trunk, State.stopRegister_trunk]
  simpa [Trunk.withTone] using h

theorem State.endCall_misc (s : State) (b : Bool) (t : TrunkNo) (c : Cause) :
    (s.endCall b t c).traffic = s.traffic ∧ (s.endCall b t c).sequence = s.sequence := by
  unfold State.endCall State.closeRecord
  dsimp only
  split <;> simp [s.stopRegister_misc b t]

theorem State.endCall_self (s : State) (b : Bool) (t : TrunkNo) (c : Cause) (h : ∀ e ∈ s.callQueue, e.trunk ≠ t) :
    ((s.endCall b t c).trunk t).unit = none ∧ ((s.endCall b t c).trunk t).tone = none := by
  unfold State.endCall
  simp only [State.closeRecord_trunk, State.mapTrunk_trunk_at, if_true]
  exact s.stopRegister_self b t h

end Sys2Proof.Machine
end

