-- ==== Sys2Proof/Laws/Outcomes.lean ====
section
/-! SUPPORT. What the outcomes of the register phases, a clear-forward of the unit's own and the checks of the trunk
commands do, once for all statements that need them. -/

namespace Sys2Proof.Machine

/-! ### Payload bytes and checks -/

/-- A byte carries a number below 256. -/
theorem byte_toNat (n : Nat) (h : n < 256) : (byte n).toNat = n := by simp [byte]; omega

/-- A payload byte that carries a trunk number is read as that trunk. -/
theorem trunkOf_byte (t : TrunkNo) : trunkOf (byteAt [byte t.val] 0) = some t := by
  have : (byte t.val).toNat = t.val := by simp [byte]; omega
  simp [trunkOf, byteAt, this]

/-- R39: a trunk command on an equipped trunk in a state that takes it passes its checks. -/
theorem State.judgeTrunk_ok (s : State) (t : TrunkNo) (a) (h : (s.trunk t).role ≠ .unequipped) (ha : a (s.trunk t).state = true) : s.judgeTrunk [byte t.val] a = .ok t := by
  unfold State.judgeTrunk
  rw [trunkOf_byte]
  simp [check, fieldOf, bind, Except.bind, h, ha, pure, Except.pure]

/-! ### Outcomes of the register phases -/

/-- The profile that a trunk names, after a change of its record that keeps the name. -/
theorem State.mapTrunk_profile {s : State} {t : TrunkNo} {p : Profile} (hp : p = s.profiles.get (s.trunk t).profile) : ∀ f : Trunk → Trunk, (f (s.trunk t)).profile = (s.trunk t).profile → (s.mapTrunk t f).profileOf t = p := by
  intro f hf; rw [State.mapTrunk_profileOf _ _ _ _ hf, State.profileOf, hp]

/-- R46: a rejection of the outgoing register phase on an unlinked trunk, after work of the pool. -/
theorem State.outOutcome_rejects (s a : State) (t : TrunkNo) (c : Cause) (hs : (s.trunk t).state = .outSelecting) (hl : (s.trunk t).link = none)
    (i : Machine.Inner s a) (w : ∀ k, a.trunk k = { s.trunk k with unit := (a.trunk k).unit, tone := (a.trunk k).tone }) (h1 : a.traffic = s.traffic) (h2 : a.sequence = s.sequence) :
    s.rejectedOut (a.outOutcome t (.reject c)) t c ∧ ((a.outOutcome t (.reject c)).trunk t).tone = (a.trunk t).tone ∧ ((a.outOutcome t (.reject c)).trunk t).unit = (a.trunk t).unit ∧ (a.outOutcome t (.reject c)).units = a.units ∧ (a.outOutcome t (.reject c)).callQueue = a.callQueue := by
  have i2 := a.outOutcome_inner t (.reject c)
  have hs' : (a.trunk t).state = .outSelecting := by rw [w, hs]
  have hl' : (a.trunk t).link = none := by rw [w, hl]
  have e : a.outOutcome t (.reject c) = ((((a.mapTrunk t fun r => { r with decadic := none }).giveCause t c).enter t .outRejected).submit (some t) (.registerEnd (a.trunk t).callRef c.result (some c))).countFor t Traffic.addFailure := by
    unfold State.outOutcome
    rw [if_neg (by simp [hs'])]
    have : a.outOutcomeAlone t (.reject c) = ((((a.mapTrunk t fun r => { r with decadic := none }).giveCause t c).enter t .outRejected).submit (some t) (.registerEnd (a.trunk t).callRef c.result (some c))).countFor t Traffic.addFailure := by
      simp [State.outOutcomeAlone, State.enter, State.giveCause]
    rw [this, State.carryBack_unlinked]
    simp [State.enter, State.giveCause, hl']
  have pf : ∀ f : Trunk → Trunk, (f (a.trunk t)).profile = (a.trunk t).profile → (a.mapTrunk t f).profileOf t = s.profiles.get (s.trunk t).profile := by
    intro f hf; rw [State.mapTrunk_profileOf _ _ _ _ hf, State.profileOf, i.profiles, w]
  have tt : ∀ k, (a.outOutcome t (.reject c)).trunk k = if k = t then { a.trunk t with decadic := none, cause := some ((a.trunk t).cause.getD c), state := .outRejected, sentCode := (s.profiles.get (s.trunk t).profile).codes.fSeize } else a.trunk k := by
    intro k; rw [e]
    simp only [State.countFor_trunk, State.submit_trunk, State.enter_trunk, State.giveCause, State.mapTrunk_mapTrunk, State.mapTrunk_trunk_at, if_true]
    rw [pf _ rfl]
    split_ifs
    · cases (a.trunk t).cause <;> rfl
    · rfl
  refine ⟨⟨?_, ?_, ?_, ?_, ?_⟩, ?_, ?_, ?_, ?_⟩
  · rw [tt, if_pos rfl, w]; exact ⟨rfl, rfl, rfl, rfl⟩
  · rw [tt, if_pos rfl, w]; exact ⟨rfl, rfl, rfl, rfl⟩
  · rw [e]
    refine (State.countFor_inner _ _ _ Traffic.addFailure_inner).reported rfl ?_
    have : c.result = if c = .unobtainable then .unobtainable else .congestion := by cases c <;> rfl
    rw [← this, show (s.trunk t).callRef = (a.trunk t).callRef by rw [w]]
    exact State.submit_reported _ _ rfl
  · rw [e]
    have g : (((((a.mapTrunk t fun r => { r with decadic := none }).giveCause t c).enter t .outRejected).submit (some t) (.registerEnd (a.trunk t).callRef c.result (some c))).trunk t).group = (s.trunk t).group := by
      simp [State.enter, State.giveCause]; rw [w]
    have g2 : ((((a.mapTrunk t fun r => { r with decadic := none }).giveCause t c).enter t .outRejected).submit (some t) (.registerEnd (a.trunk t).callRef c.result (some c))).traffic = s.traffic := by
      simp [State.enter, State.giveCause, h1]
    unfold State.countsFor State.countFor
    simp only [g, g2, get_set]
    refine ⟨?_, fun x hx => ?_⟩
    · simp [Traffic.addFailure, countUp, Config.counterMax]
    · rw [if_neg (Ne.symm hx)]
  · refine ⟨(i.trans i2).keeps, ?_, ?_, ?_⟩
    · intro k hk; rw [tt, if_neg hk]; exact w k
    · rw [i2.clk, i.clk]
    · rw [e]; simp [State.countFor, State.enter, State.giveCause, h2]
  · rw [tt, if_pos rfl]
  · rw [tt, if_pos rfl]
  · rw [e]; simp [State.countFor, State.enter, State.giveCause]
  · rw [e]; simp [State.countFor, State.enter, State.giveCause]

/-- R58: an outcome of the incoming register phase, after a change of the trunk's contexts and unit. -/
theorem State.inOutcome_ends (s a : State) (t : TrunkNo) (o : RegOutcome) (hs : (s.trunk t).state = .inSelecting)
    (i : Machine.Inner s a) (wo : ∀ k, k ≠ t → a.trunk k = { s.trunk k with unit := (a.trunk k).unit, tone := (a.trunk k).tone })
    (wt : a.trunk t = { s.trunk t with decadic := (a.trunk t).decadic, tone := (a.trunk t).tone, unit := (a.trunk t).unit })
    (wd : (a.trunk t).decadic.map DecadicContext.toWatch = (s.trunk t).decadic.map DecadicContext.toWatch)
    (h1 : a.traffic = s.traffic) (h2 : a.sequence = s.sequence) :
    (match o with | .complete => s.completedIn (a.inOutcome t o) t | .reject c => s.rejectedIn (a.inOutcome t o) t c) ∧ (a.inOutcome t o).units = a.units ∧ (a.inOutcome t o).callQueue = a.callQueue.filter (fun x => x.trunk != t) := by
  have i2 := a.inOutcome_inner t o
  have hs' : (a.trunk t).state = .inSelecting := by rw [wt]; exact hs
  let base : State := ((a.leaveQueue t).mapTrunk t fun r => { r with decadic := r.decadic.map DecadicContext.toWatch }).setFilter t .line
  have pf : ∀ f : Trunk → Trunk, (f (a.trunk t)).profile = (a.trunk t).profile → ((a.leaveQueue t).mapTrunk t f).profileOf t = s.profiles.get (s.trunk t).profile := by
    intro f hf; rw [State.mapTrunk_profileOf (a.leaveQueue t) t t f hf]; rw [State.leaveQueue, State.withCallQueue_profileOf, State.profileOf, i.profiles, wt]
  have wdc : ∀ c, (s.trunk t).decadic = some (.receiving c) → (a.trunk t).decadic.map DecadicContext.toWatch = some (.watching { line := c.line, clearRec := c.clearRec }) := by
    intro c hc; rw [wd, hc]; rfl
  have cr : (a.trunk t).callRef = (s.trunk t).callRef := by rw [wt]
  cases o with
  | complete =>
    have e : a.inOutcome t .complete = (base.enter t .inWaitAnswer).submit (some t) (.digitsComplete (s.trunk t).callRef (s.trunk t).received.category (s.trunk t).received.digits) := by
      unfold State.inOutcome
      rw [if_neg (by simp [hs'])]
      simp only [State.enter, State.setFilter, State.leaveQueue, State.mapTrunk_trunk, State.withCallQueue_trunk, base]
      rw [wt]
    have tt : ∀ k, (a.inOutcome t .complete).trunk k = if k = t then { a.trunk t with decadic := (a.trunk t).decadic.map DecadicContext.toWatch, lcr := { (a.trunk t).lcr with mode := .line }, state := .inWaitAnswer, sentCode := (s.profiles.get (s.trunk t).profile).codes.bAck } else a.trunk k := by
      intro k; rw [e]
      simp only [base, State.submit_trunk, State.enter_trunk, State.setFilter, State.mapTrunk_mapTrunk, State.mapTrunk_trunk_at, if_true]
      rw [pf _ rfl]
      simp only [State.leaveQueue, State.withCallQueue_trunk]
      split_ifs <;> rfl
    refine ⟨⟨⟨?_, ?_, ?_⟩, ?_, ?_, ?_, ?_, ?_⟩, ?_, ?_⟩
    · rw [tt, if_pos rfl]; exact ⟨rfl, wdc⟩
    · rw [tt, if_pos rfl, wt]; exact ⟨rfl, rfl, rfl, rfl⟩
    · refine ⟨(i.trans i2).keeps, fun k hk => ?_, ?_, ?_⟩
      · rw [tt, if_neg hk]; exact wo k hk
      · rw [i2.clk, i.clk]
      · rw [e]; simp [base, State.enter, State.setFilter, State.leaveQueue, h2]
    · rw [tt, if_pos rfl]
    · rw [tt, if_pos rfl]
    · rw [tt, if_pos rfl, wt]
    · rw [e]; exact State.submit_reported _ _ rfl
    · rw [e]; simp [base, State.enter, State.setFilter, State.leaveQueue, h1]
    · rw [e]; simp [base, State.enter, State.setFilter, State.leaveQueue]
    · rw [e]; simp [base, State.enter, State.setFilter, State.leaveQueue, State.withCallQueue]
  | reject c =>
    have e : a.inOutcome t (.reject c) = (((base.giveCause t c).enter t .inRejected).submit (some t) (.registerEnd (s.trunk t).callRef c.result (some c))).countFor t Traffic.addFailure := by
      unfold State.inOutcome
      rw [if_neg (by simp [hs'])]
      simp only [State.enter, State.setFilter, State.leaveQueue, State.mapTrunk_trunk, State.withCallQueue_trunk, State.giveCause, base]
      rw [wt]
    have tt : ∀ k, (a.inOutcome t (.reject c)).trunk k = if k = t then { a.trunk t with decadic := (a.trunk t).decadic.map DecadicContext.toWatch, lcr := { (a.trunk t).lcr with mode := .line }, state := .inRejected, sentCode := (s.profiles.get (s.trunk t).profile).codes.bClearback, cause := some ((a.trunk t).cause.getD c) } else a.trunk k := by
      intro k; rw [e]
      simp only [base, State.countFor_trunk, State.submit_trunk, State.enter_trunk, State.giveCause, State.setFilter, State.mapTrunk_mapTrunk, State.mapTrunk_trunk_at, if_true]
      rw [pf _ rfl]
      simp only [State.leaveQueue, State.withCallQueue_trunk]
      split_ifs
      · cases (a.trunk t).cause <;> rfl
      · rfl
    refine ⟨⟨⟨?_, ?_, ?_⟩, ?_, ?_, ?_, ?_, ?_⟩, ?_, ?_⟩
    · rw [tt, if_pos rfl]; exact ⟨rfl, wdc⟩
    · rw [tt, if_pos rfl, wt]; exact ⟨rfl, rfl, rfl, rfl⟩
    · refine ⟨(i.trans i2).keeps, fun k hk => ?_, ?_, ?_⟩
      · rw [tt, if_neg hk]; exact wo k hk
      · rw [i2.clk, i.clk]
      · rw [e]; simp [base, State.countFor, State.giveCause, State.enter, State.setFilter, State.leaveQueue, h2]
    · rw [tt, if_pos rfl]
    · rw [tt, if_pos rfl]
    · rw [tt, if_pos rfl, wt]
    · rw [e]
      refine (State.countFor_inner _ _ _ Traffic.addFailure_inner).reported rfl ?_
      have : c.result = if c = .unobtainable then .unobtainable else .congestion := by cases c <;> rfl
      rw [← this]
      exact State.submit_reported _ _ rfl
    · rw [e]
      have g : ((((base.giveCause t c).enter t .inRejected).submit (some t) (.registerEnd (s.trunk t).callRef c.result (some c))).trunk t).group = (s.trunk t).group := by
        simp [base, State.enter, State.giveCause, State.setFilter, State.leaveQueue]; rw [wt]
      have g2 : (((base.giveCause t c).enter t .inRejected).submit (some t) (.registerEnd (s.trunk t).callRef c.result (some c))).traffic = s.traffic := by
        simp [base, State.enter, State.giveCause, State.setFilter, State.leaveQueue, h1]
      unfold State.countsFor State.countFor
      simp only [g, g2, get_set]
      refine ⟨?_, fun x hx => ?_⟩
      · simp [Traffic.addFailure, countUp, Config.counterMax]
      · rw [if_neg (Ne.symm hx)]
    · rw [e]; simp [base, State.countFor, State.giveCause, State.enter, State.setFilter, State.leaveQueue]
    · rw [e]; simp [base, State.countFor, State.giveCause, State.enter, State.setFilter, State.leaveQueue, State.withCallQueue]

/-- R58, R165: at a trunk in no relay link a rejection handed up at once is the outcome alone. -/
theorem State.rejectIn_unlinked (a : State) (t : TrunkNo) (c : Cause) (hl : (a.trunk t).link = none) : a.rejectIn t c = a.inOutcome t (.reject c) := by
  unfold State.rejectIn
  rw [State.inletGone_unlinked]
  have := (a.inOutcome t (.reject c))
  unfold State.inOutcome
  split_ifs
  · exact hl
  · simp [State.enter, State.giveCause, State.setFilter, State.leaveQueue, hl]

/-- R58: the trunks and the report after a rejection of the incoming register phase. -/
theorem State.inOutcome_reject (a : State) (t : TrunkNo) (c : Cause) (hs : (a.trunk t).state = .inSelecting) :
    (∀ k, (a.inOutcome t (.reject c)).trunk k = if k = t then { a.trunk t with decadic := (a.trunk t).decadic.map DecadicContext.toWatch, lcr := { (a.trunk t).lcr with mode := .line }, state := .inRejected, sentCode := (a.profileOf t).codes.bClearback, cause := some ((a.trunk t).cause.getD c) } else a.trunk k) ∧
    (a.inOutcome t (.reject c)).reported (some t) (.registerEnd (a.trunk t).callRef c.result (some c)) := by
  let base : State := ((a.leaveQueue t).mapTrunk t fun r => { r with decadic := r.decadic.map DecadicContext.toWatch }).setFilter t .line
  have e : a.inOutcome t (.reject c) = (((base.giveCause t c).enter t .inRejected).submit (some t) (.registerEnd (a.trunk t).callRef c.result (some c))).countFor t Traffic.addFailure := by
    unfold State.inOutcome
    rw [if_neg (by simp [hs])]
    simp only [State.enter, State.setFilter, State.leaveQueue, State.mapTrunk_trunk, State.withCallQueue_trunk, State.giveCause, base]
  have pf : ∀ f : Trunk → Trunk, (f (a.trunk t)).profile = (a.trunk t).profile → ((a.leaveQueue t).mapTrunk t f).profileOf t = a.profileOf t := by
    intro f hf; rw [State.mapTrunk_profileOf (a.leaveQueue t) t t f hf]; rw [State.leaveQueue, State.withCallQueue_profileOf]
  refine ⟨?_, ?_⟩
  · intro k; rw [e]
    simp only [base, State.countFor_trunk, State.submit_trunk, State.enter_trunk, State.giveCause, State.setFilter, State.mapTrunk_mapTrunk, State.mapTrunk_trunk_at, if_true]
    rw [pf _ rfl]
    simp only [State.leaveQueue, State.withCallQueue_trunk]
    split_ifs
    · cases (a.trunk t).cause <;> rfl
    · rfl
  · rw [e]
    refine (State.countFor_inner _ _ _ Traffic.addFailure_inner).reported rfl ?_
    exact State.submit_reported _ _ rfl

/-! ### Clearing forward -/

/-- R50: the trunks after clearing forward where the accepted code is UNKNOWN. -/
theorem State.clearOut_trunk (b : State) (t : TrunkNo) (ha : (b.trunk t).lcr.accepted = none) :
   ∀ k, (b.clearOut t).trunk k = if k = t then { b.trunk t with timer := some ⟨.release, (b.profileOf t).releaseTimer⟩, state := .outClearing, sentCode := (b.profileOf t).codes.fClear } else b.trunk k := by
  have hc : ∀ x : State, (x.trunk t).lcr.accepted = none → x.decodeClearing t = x := by
    intro x hx; simp [State.decodeClearing, State.decoded, hx]
  have hco : b.clearOut t = ((b.dropTimer t).enter t .outClearing).startTimer t .release (b.profileOf t).releaseTimer := by
    unfold State.clearOut
    dsimp only
    rw [hc, State.enter_profileOf, State.dropTimer, State.mapTrunk_profileOf _ _ _ _ rfl]
    simp only [State.startTimer, State.mapTrunk_trunk, State.enter_trunk, State.dropTimer, if_true]
    exact ha
  intro k; rw [hco]
  simp only [State.startTimer, State.mapTrunk_trunk_at, State.enter_trunk, State.dropTimer, if_true]
  rw [State.mapTrunk_profileOf _ _ _ _ rfl]
  split_ifs <;> rfl

/-- R40: the trunks after register work ends at a trunk that holds no unit. -/
theorem State.stopRegister_unitless (a : State) (t : TrunkNo) (h : (a.trunk t).unit = none) : (∀ k, (a.stopRegister true t).trunk k = if k = t then { a.trunk t with decadic := none, tone := none, lcr := { (a.trunk t).lcr with mode := .line } } else a.trunk k) := by
  intro k
  unfold State.stopRegister State.endTone
  simp only [State.mapTrunk_trunk, h]
  simp only [State.setFilter, State.leaveQueue, State.mapTrunk_trunk_at, State.withCallQueue_trunk, if_true]
  split_ifs
  · rw [← h]
  · rfl

/-- R50, R54: register work ended and the trunk cleared forward, after a change of its cause alone. -/
theorem State.clearOut_clears (s a : State) (t : TrunkNo) (c : Option Cause) (hq : ∀ e ∈ s.callQueue, e.trunk ≠ t) (hacc : (s.trunk t).lcr.accepted = none)
    (ha : ∀ k, a.trunk k = if k = t then { s.trunk t with cause := c } else s.trunk k) (i : Machine.Inner s a) (h1 : a.traffic = s.traffic) (h2 : a.sequence = s.sequence) (h3 : a.rqa = s.rqa) (h4 : a.fault = s.fault) (h5 : a.callQueue = s.callQueue) :
    s.clearedOut ((a.stopRegister true t).clearOut t) t c ∧ ((a.stopRegister true t).clearOut t).clk = s.clk := by
  have i2 := (a.stopRegister true t).clearOut_inner t
  have i1 := a.stopRegister_inner true t
  have i3 := (i.trans i1).trans i2
  obtain ⟨m1, m2, m3, m4⟩ := a.stopRegister_misc true t
  have ss := a.stopRegister_self true t (by rw [h5]; exact hq)
  have tt := a.stopRegister_trunk true t
  generalize hb : a.stopRegister true t = b at *
  have hc : ∀ x : State, (x.trunk t).lcr.accepted = none → x.decodeClearing t = x := by
    intro x hx; simp [State.decodeClearing, State.decoded, hx]
  have pf : b.profileOf t = s.profiles.get (s.trunk t).profile := by
    unfold State.profileOf; rw [i1.profiles, i.profiles, (i1.trunks t).kept.2.1, (i.trunks t).kept.2.1]
  have hco : b.clearOut t = ((b.dropTimer t).enter t .outClearing).startTimer t .release (b.profileOf t).releaseTimer := by
    unfold State.clearOut
    dsimp only
    rw [hc, State.enter_profileOf, State.dropTimer, State.mapTrunk_profileOf _ _ _ _ rfl]
    simp only [State.startTimer, State.mapTrunk_trunk, State.enter_trunk, State.dropTimer, if_true]
    rw [(i1.trunks t).kept.2.2.2.2.2.1, (i.trunks t).kept.2.2.2.2.2.1, hacc]
  have tu : ∀ k, (b.clearOut t).trunk k = if k = t then { b.trunk t with timer := some ⟨.release, (b.profileOf t).releaseTimer⟩, state := .outClearing, sentCode := (b.profileOf t).codes.fClear } else b.trunk k := by
    intro k; rw [hco]
    simp only [State.startTimer, State.mapTrunk_trunk_at, State.enter_trunk, State.dropTimer, if_true]
    rw [State.mapTrunk_profileOf _ _ _ _ rfl]
    split_ifs <;> rfl
  refine ⟨⟨?_, ?_, ?_, ?_, ?_⟩, i3.clk⟩
  · rw [tu, if_pos rfl, pf]; refine ⟨rfl, rfl, ?_⟩
    dsimp only; rw [tt, ha]; simp [Trunk.withTone]
  · rw [tu, if_pos rfl, pf]
  · rw [tu, if_pos rfl]; refine ⟨?_, ss.2, ss.1, ?_⟩ <;> (dsimp only; rw [tt]; simp [Trunk.withTone])
  · rw [tu, if_pos rfl]; dsimp only; rw [tt, ha]; simp [Trunk.withTone]
  · refine ⟨i3.keeps, ?_, ?_, ?_, ?_, ?_⟩
    · intro k hk; rw [tu, if_neg hk, tt, if_neg hk, ha, if_neg hk]; rfl
    all_goals rw [hco]; simp only [State.startTimer, State.enter, State.dropTimer, State.mapTrunk_traffic, State.mapTrunk_sequence, State.mapTrunk_rqa, State.mapTrunk_fault, m1, m2, m3, m4, h1, h2, h3, h4]

/-- R41, R38: a call ended and its trunk freed, after work of the pool and of the engines. -/
theorem State.endCall_frees (s a : State) (t : TrunkNo) (c : Cause) (hq : ∀ e ∈ a.callQueue, e.trunk ≠ t)
    (i : Machine.Inner s a) (ha : ∀ k, a.trunk k = { s.trunk k with unit := (a.trunk k).unit, tone := (a.trunk k).tone, decadic := (if k = t then (a.trunk k).decadic else (s.trunk k).decadic), lcr := (if k = t then (a.trunk k).lcr else (s.trunk k).lcr) })
    (h1 : a.traffic = s.traffic) (h2 : a.sequence = s.sequence)
    (hd : ∀ x : State, x.profiles = s.profiles → (x.trunk t).state = .idle → (x.trunk t).lcr.accepted = (s.trunk t).lcr.accepted → (x.trunk t).role = (s.trunk t).role → (x.trunk t).profile = (s.trunk t).profile → (x.trunk t).remoteBlock = (s.trunk t).remoteBlock → x.decodeIdle t = x) :
    s.freedCall (((a.endCall true t c).mapTrunk t fun r => { r with cause := none }).enterIdle t) t c ∧ (((a.endCall true t c).mapTrunk t fun r => { r with cause := none }).enterIdle t).clk = s.clk := by
  have i2 := a.endCall_inner true t c
  have t2 := fun k => State.endCall_trunk a true t k c
  have me := a.endCall_misc true t c
  have ms := a.endCall_self true t c hq
  have mr : ∀ r, (s.trunk t).record = some r → (a.endCall true t c).reported (some t) (.released { record := r, releaseTime := s.tmb.counter, cause := c }) := by
    intro r hr
    have : s.tmb.counter = a.tmb.counter := by rw [i.tmb]
    rw [this]
    exact State.endCall_reported _ _ _ _ (by rw [ha]; exact hr)
  generalize a.endCall true t c = b at *
  have lb : (b.trunk t).localBlock = (s.trunk t).localBlock := by rw [t2, ha]; simp [Trunk.withTone]
  have pf : b.profileOf t = s.profiles.get (s.trunk t).profile := by
    unfold State.profileOf; rw [i2.profiles, i.profiles, (i2.trunks t).kept.2.1, (i.trunks t).kept.2.1]
  have hco : (b.mapTrunk t fun r => { r with cause := none }).enterIdle t = (b.mapTrunk t fun r => { r with cause := none }).enter t (if (s.trunk t).localBlock then .localBlocked else .idle) := by
    unfold State.enterIdle
    simp only [State.mapTrunk_trunk, lb]
    split_ifs with h
    · rfl
    · refine hd _ ?_ ?_ ?_ ?_ ?_ ?_
      · simp [State.enter, i2.profiles, i.profiles]
      · simp [State.enter]
      · simp only [State.enter, State.mapTrunk_trunk]; rw [(i2.trunks t).kept.2.2.2.2.2.1, (i.trunks t).kept.2.2.2.2.2.1]
      · simp only [State.enter, State.mapTrunk_trunk]; rw [(i2.trunks t).kept.1, (i.trunks t).kept.1]
      · simp only [State.enter, State.mapTrunk_trunk]; rw [(i2.trunks t).kept.2.1, (i.trunks t).kept.2.1]
      · simp only [State.enter, State.mapTrunk_trunk]; rw [t2, ha]; simp [Trunk.withTone]
  have tu : ∀ st k, ((b.mapTrunk t fun r => { r with cause := none }).enter t st).trunk k = if k = t then { b.trunk t with cause := none, state := st, sentCode := sentCodeOf (s.profiles.get (s.trunk t).profile).codes (s.trunk t).role st } else b.trunk k := by
    intro st k
    simp only [State.mapTrunk_trunk_at, State.enter_trunk, if_true]
    rw [State.mapTrunk_profileOf _ _ _ _ rfl, pf, (i2.trunks t).kept.1, (i.trunks t).kept.1]
    split_ifs <;> rfl
  have ne : (if (s.trunk t).localBlock = true then TrunkState.localBlocked else TrunkState.idle) ≠ .unequipped := by split_ifs <;> simp
  have i4 : Machine.Inner b ((b.mapTrunk t fun r => { r with cause := none }).enter t (if (s.trunk t).localBlock then .localBlocked else .idle)) := by
    exact (State.mapTrunk_inner _ _ _ (.of_same rfl rfl rfl rfl rfl ⟨rfl, rfl⟩ rfl rfl rfl)).trans (State.enter_inner _ _ ne)
  rw [hco]
  refine ⟨⟨?_, ?_, ?_, ?_, ?_⟩, ?_⟩
  · rw [tu, if_pos rfl]; exact ⟨rfl, rfl, rfl⟩
  · rw [tu, if_pos rfl]; dsimp only; rw [t2]; simp [Trunk.withTone]
  · rw [tu, if_pos rfl]; refine ⟨?_, ms.2, ms.1, ?_⟩ <;> (dsimp only; rw [t2]; simp [Trunk.withTone])
  · intro r hr; exact i4.reported rfl (mr r hr)
  · refine ⟨((i.trans i2).trans i4).keeps, ?_, ?_, ?_⟩
    · intro k hk; rw [tu, if_neg hk, t2, if_neg hk]; simp only [Trunk.withTone]; rw [ha k]; simp only [if_neg hk]
    · simp [State.enter, me.1, h1]
    · simp [State.enter, me.2, h2]
  · rw [i4.clk, i2.clk, i.clk]

end Sys2Proof.Machine
end

