-- ==== Sys2Proof/Laws/Effects.lean ====
section
/-! SUPPORT. What the shared operations of the model do, in the words of the statements (Claims.lean): one equation for
each operation, so that no proof unfolds it again. -/

namespace Sys2Proof.Machine

/-! ### The sender's items, grants and freed units -/

theorem State.sendItem_eq (s : State) (t : TrunkNo) (c : ToneSender) (i : SendItem) {h : HeldUnit}
    (hu : (s.trunk t).unit = some h) :
    s.sendItem t c i = s.sends t h.unit i (s.itemSignal t i)
      (match i with
        | .digit pos => some pos
        | _ => c.lastSent) := by
  simp only [State.sendItem, State.startSignal, hu]; rfl

theorem State.chooseItem_eq (s : State) (t : TrunkNo) (c : ToneSender) {h : HeldUnit} (hu : (s.trunk t).unit = some h) :
    s.chooseItem t c = s.sendsNext t h.unit c := by
  unfold State.chooseItem State.sendsNext SendStore.nextItem
  dsimp only
  by_cases h1 : (s.trunk t).send.pos ≤ (s.trunk t).send.digits.length
  · simp only [if_pos h1, s.sendItem_eq t c _ hu]; rfl
  · by_cases h2 : (s.trunk t).send.endFlag = true
    · simp only [if_neg h1, if_pos h2, s.sendItem_eq t c _ hu]; rfl
    · simp only [if_neg h1, if_neg h2]; rfl

theorem State.grantCall_eq (s : State) (v : UnitNo) (t : TrunkNo) (role : UnitRole) :
    s.grantCall v t role = s.granted v t role := by
  cases role
  · simp only [State.grantCall, State.openSender, State.granted]
    rw [State.chooseItem_eq _ _ _ (by rw [State.mapTrunk_trunk])]
  · simp only [State.grantCall, State.openReceiver, State.granted, State.setTone, State.profileOf]
    rw [State.mapTrunk_mapTrunk]
    simp only [State.mapTrunk_trunk]
    exact State.mapTrunk_congr _ _ rfl

theorem State.handOn_eq (s : State) (v : UnitNo) : s.handOn v = s.handsOn v := by
  unfold State.handOn State.handsOn
  cases hq : s.callQueue with
  | cons e rest => exact State.grantCall_eq _ _ _ _
  | nil =>
    cases s.testQueue with
    | nil => rfl
    | cons r rest => simp only [State.inHold, beq_iff_eq, ← hq]; rfl

theorem State.freeUnit_eq (s : State) (v : UnitNo) :
    s.freeUnit true v = (s.mapUnit v fun _ => { status := .free }).handsOn v := State.handOn_eq _ _

theorem State.endTone_eq (s : State) (t : TrunkNo) :
    s.endTone true t = (s.mapTrunk t fun r => { r with tone := none, unit := none }).frees (s.trunk t).unit := by
  unfold State.endTone State.frees
  dsimp only
  cases (s.trunk t).unit with
  | none => rfl
  | some h => exact State.freeUnit_eq _ _

/-! ### Equal states -/

/-- Two states are equal when their parts are, trunk by trunk and unit by unit. -/
theorem State.ext_parts {a b : State} (h1 : a.pending = b.pending) (h2 : a.tmb = b.tmb) (h3 : a.hwi = b.hwi)
    (h4 : a.profiles = b.profiles) (h5 : ∀ t, a.trunk t = b.trunk t) (h6 : ∀ v, a.unit v = b.unit v)
    (h7 : a.callQueue = b.callQueue) (h8 : a.testQueue = b.testQueue) (h9 : a.analysis = b.analysis)
    (h10 : a.sequence = b.sequence) (h11 : a.traffic = b.traffic) (h12 : a.clk = b.clk) (h13 : a.rqa = b.rqa)
    (h14 : a.fault = b.fault) (h15 : a.sgtx = b.sgtx) (h16 : a.ltx = b.ltx) : a = b := by
  have k5 : a.trunks = b.trunks := Vector.ext fun i hi => h5 ⟨i, hi⟩
  have k6 : a.units = b.units := Vector.ext fun i hi => h6 ⟨i, hi⟩
  cases a; cases b; simp_all

/-! ### Outcomes -/

theorem Cause.result_eq (c : Cause) : c.result = if c = .unobtainable then .unobtainable else .congestion := by
  cases c <;> rfl

theorem orElse_some {α : Type} (o : Option α) (x : α) : (o.orElse fun _ => some x) = some (o.getD x) := by
  cases o <;> rfl

theorem State.inOutcome_eq (s : State) (t : TrunkNo) (o : RegOutcome) (hs : (s.trunk t).state = .inSelecting) :
    s.inOutcome t o = s.endsIn t o := by
  unfold State.inOutcome State.endsIn
  rw [if_neg (by simp [hs])]
  simp only [State.enter, State.setFilter, State.leaveQueue, State.giveCause, State.mapTrunk_mapTrunk]
  cases o with
  | complete =>
    simp only [State.profileOf, State.mapTrunk_trunk]
    rfl
  | reject cause =>
    simp only [State.profileOf, State.mapTrunk_trunk]
    rw [Cause.result_eq]; simp only [orElse_some]
    rfl

theorem State.outOutcomeAlone_eq (s : State) (t : TrunkNo) (o : RegOutcome) : s.outOutcomeAlone t o = s.endsOut t o := by
  unfold State.outOutcomeAlone State.endsOut
  cases o with
  | complete =>
    simp only [State.enterWaitAnswer, State.enter, State.startTimer, State.mapTrunk_mapTrunk]
    simp only [State.profileOf, State.mapTrunk_trunk, State.mapTrunk_profiles]
    by_cases h : (s.profiles.get (s.trunk t).profile).answerWait = 0
    · simp only [if_pos h, State.mapTrunk_trunk]; rfl
    · simp only [if_neg h, State.mapTrunk_trunk]; rfl
  | reject cause =>
    simp only [State.enter, State.giveCause, State.mapTrunk_mapTrunk]
    simp only [State.profileOf, State.mapTrunk_trunk]
    rw [Cause.result_eq]; simp only [orElse_some]
    rfl

theorem State.endsOut_link (s : State) (t : TrunkNo) (o : RegOutcome) :
    ((s.endsOut t o).trunk t).link = (s.trunk t).link := by
  cases o <;> simp [State.endsOut, State.mapTrunk_trunk]

theorem State.outOutcome_eq (s : State) (t : TrunkNo) (o : RegOutcome) (hs : (s.trunk t).state = .outSelecting)
    (hl : (s.trunk t).link = none) : s.outOutcome t o = s.endsOut t o := by
  rw [State.outOutcome, if_neg (by simp [hs]), State.outOutcomeAlone_eq]
  exact State.carryBack_unlinked _ _ _ (by rw [State.endsOut_link, hl])

theorem RegOutcome.signal_eq (o : RegOutcome) : o.signal = outcomeSignal o := by
  rcases o with _ | c
  · rfl
  · cases c <;> rfl

theorem State.startSignal_eq (s : State) (t : TrunkNo) (b : BackwardSignal) (c : ToneReceiver) {h : HeldUnit}
    (hu : (s.trunk t).unit = some h) :
    (s.startSignal t (.backward b)).setTone t (.receiver c) = s.replies t h.unit b c := by
  simp only [State.startSignal, hu]; rfl

theorem State.respond_eq (s : State) (t : TrunkNo) (c : ToneReceiver) (b : BackwardSignal) {h : HeldUnit}
    (hu : (s.trunk t).unit = some h) : s.respond t c b = s.responds t h.unit b c :=
  s.startSignal_eq t b _ hu

theorem State.replies_trunk (s : State) (t : TrunkNo) (v : UnitNo) (b : BackwardSignal) (c : ToneReceiver) :
    (s.replies t v b c).trunk t = { s.trunk t with tone := some (.receiver c) } := by
  simp [State.replies, State.mapTrunk_trunk]

theorem State.respondOutcome_eq (s : State) (t : TrunkNo) (c : ToneReceiver) (o : RegOutcome) {h : HeldUnit}
    (hu : (s.trunk t).unit = some h) (hs : (s.trunk t).state = .inSelecting) :
    s.respondOutcome t c o = s.respondsLast t h.unit c o := by
  rw [State.respondOutcome, s.startSignal_eq t _ _ hu, State.inOutcome_eq _ _ _ (by rw [State.replies_trunk]; exact hs),
    RegOutcome.signal_eq]
  rfl

theorem State.pulseOutcome_eq (s : State) (t : TrunkNo) (c : ToneReceiver) (o : RegOutcome) {h : HeldUnit}
    (hu : (s.trunk t).unit = some h) (hs : (s.trunk t).state = .inSelecting) :
    s.pulseOutcome t c o = s.pulses t h.unit c o := by
  rw [State.pulseOutcome, s.startSignal_eq t _ _ hu, State.inOutcome_eq _ _ _ (by rw [State.replies_trunk]; exact hs),
    RegOutcome.signal_eq]
  rfl

theorem State.outsideOutcome_eq (s : State) (t : TrunkNo) (c : ToneReceiver) (o : RegOutcome) {h : HeldUnit}
    (hu : (s.trunk t).unit = some h) (hs : (s.trunk t).state = .inSelecting) (hp : c.pending = none) :
    s.outsideOutcome t c o = s.takesOutcome t h.unit c o := by
  simp only [State.outsideOutcome, hp, Option.isSome_none, State.takesOutcome, s.pulseOutcome_eq t c o hu hs,
    s.respondOutcome_eq t c o hu hs]
  rfl

/-! ### Register work -/

theorem State.mapTrunk_comm (s : State) {t k : TrunkNo} (h : k ≠ t) (f g : Trunk → Trunk) :
    (s.mapTrunk k f).mapTrunk t g = (s.mapTrunk t g).mapTrunk k f := by
  refine State.ext_parts rfl rfl rfl rfl (fun u => ?_) (fun _ => rfl) rfl rfl rfl rfl rfl rfl rfl rfl rfl rfl
  simp only [State.mapTrunk_trunk_at]
  by_cases h1 : u = t
  · subst h1; simp [Ne.symm h]
  · by_cases h2 : u = k
    · subst h2; simp [h]
    · simp [h1, h2]

theorem State.sendsNext_mapTrunk (s : State) {t k : TrunkNo} (h : k ≠ t) (v : UnitNo) (c : ToneSender) (g : Trunk → Trunk) :
    (s.sendsNext k v c).mapTrunk t g = (s.mapTrunk t g).sendsNext k v c := by
  have e : (s.mapTrunk t g).trunk k = s.trunk k := State.mapTrunk_trunk_ne _ _ h
  unfold State.sendsNext State.sends
  simp only [e]
  split_ifs
  · exact State.mapTrunk_comm (s.mapUnit v _) h _ _
  · exact State.mapTrunk_comm (s.mapUnit v _) h _ _
  · exact State.mapTrunk_comm s h _ _

theorem State.granted_mapTrunk (s : State) {t k : TrunkNo} (h : k ≠ t) (v : UnitNo) (role : UnitRole)
    (g : Trunk → Trunk) : (s.granted v k role).mapTrunk t g = (s.mapTrunk t g).granted v k role := by
  cases role
  · simp only [State.granted]
    rw [State.sendsNext_mapTrunk _ h]
    congr 1
    exact State.mapTrunk_comm (s.mapUnit v _) h _ _
  · exact State.mapTrunk_comm (s.mapUnit v _) h _ _

/-- What the freeing of a unit can hand on: a grant to the head of the call wait queue, a measurement, or nothing. -/
theorem State.handsOn_cases (s : State) (v : UnitNo) :
    (∃ e rest, s.callQueue = e :: rest ∧
      s.handsOn v = ({ s with callQueue := rest } : State).granted v e.trunk e.role) ∨
    (∃ r rest, s.callQueue = [] ∧ s.testQueue = r :: rest ∧ s.hwi.alignment ≠ .hold ∧
      s.handsOn v = ({ s with testQueue := rest } : State).mapUnit v fun _ => { status := .measuring r.trunk r.blocks 0 }) ∨
    (s.callQueue = [] ∧ (s.testQueue = [] ∨ s.hwi.alignment = .hold) ∧ s.handsOn v = s) := by
  by_cases hc : s.callQueue = []
  · by_cases ht : s.testQueue = []
    · exact .inr (.inr ⟨hc, .inl ht, by simp only [State.handsOn, hc, ht]⟩)
    · obtain ⟨r, rest, ht⟩ := List.exists_cons_of_ne_nil ht
      by_cases hh : s.hwi.alignment = .hold
      · exact .inr (.inr ⟨hc, .inr hh, by simp only [State.handsOn, hc, ht, if_pos hh]⟩)
      · exact .inr (.inl ⟨r, rest, hc, ht, hh, by simp only [State.handsOn, hc, ht, if_neg hh]⟩)
  · obtain ⟨e, rest, hc⟩ := List.exists_cons_of_ne_nil hc
    exact .inl ⟨e, rest, hc, by simp only [State.handsOn, hc]⟩

theorem State.handsOn_mapTrunk (s : State) (t : TrunkNo) (v : UnitNo) (g : Trunk → Trunk)
    (hq : ∀ e ∈ s.callQueue, e.trunk ≠ t) : (s.handsOn v).mapTrunk t g = (s.mapTrunk t g).handsOn v := by
  by_cases hc : s.callQueue = []
  · by_cases ht : s.testQueue = []
    · simp only [State.handsOn, State.mapTrunk_callQueue, State.mapTrunk_testQueue, hc, ht]
    · obtain ⟨r, rest, ht⟩ := List.exists_cons_of_ne_nil ht
      simp only [State.handsOn, State.mapTrunk_callQueue, State.mapTrunk_testQueue, State.mapTrunk_hwi, hc, ht]
      by_cases hh : s.hwi.alignment = .hold
      · simp only [if_pos hh]
      · simp only [if_neg hh]; rfl
  · obtain ⟨e, rest, hc⟩ := List.exists_cons_of_ne_nil hc
    simp only [State.handsOn, State.mapTrunk_callQueue, hc]
    exact State.granted_mapTrunk _ (hq e (by rw [hc]; exact List.mem_cons_self)) _ _ _

/-- A change of a trunk's own record commutes with the freeing of a unit, where the trunk waits for none. -/
theorem State.frees_mapTrunk (s : State) (t : TrunkNo) (h : Option HeldUnit) (g : Trunk → Trunk)
    (hq : ∀ e ∈ s.callQueue, e.trunk ≠ t) : (s.frees h).mapTrunk t g = (s.mapTrunk t g).frees h := by
  cases h with
  | none => rfl
  | some h => exact State.handsOn_mapTrunk (s.mapUnit h.unit _) t h.unit g hq

theorem State.sendsNext_queues (s : State) (k : TrunkNo) (v : UnitNo) (c : ToneSender) :
    (s.sendsNext k v c).callQueue = s.callQueue ∧ (s.sendsNext k v c).testQueue = s.testQueue := by
  unfold State.sendsNext State.sends; dsimp only; split_ifs <;> exact ⟨rfl, rfl⟩

theorem State.granted_queues (s : State) (v : UnitNo) (k : TrunkNo) (role : UnitRole) :
    (s.granted v k role).callQueue = s.callQueue ∧ (s.granted v k role).testQueue = s.testQueue := by
  cases role
  · exact State.sendsNext_queues _ _ _ _
  · exact ⟨rfl, rfl⟩

theorem State.handsOn_callQueue (s : State) (v : UnitNo) : ∀ e ∈ (s.handsOn v).callQueue, e ∈ s.callQueue := by
  intro e he
  rcases s.handsOn_cases v with ⟨x, rest, h, k⟩ | ⟨_, _, _, _, _, k⟩ | ⟨_, _, k⟩
  · rw [k, (State.granted_queues _ _ _ _).1] at he; rw [h]; exact List.mem_cons_of_mem _ he
  · rw [k] at he; exact he
  · rw [k] at he; exact he

theorem State.frees_callQueue (s : State) (h : Option HeldUnit) : ∀ e ∈ (s.frees h).callQueue, e ∈ s.callQueue := by
  intro e he
  cases h with
  | none => exact he
  | some h =>
    rw [State.frees] at he
    exact State.handsOn_callQueue (s.mapUnit h.unit _) h.unit e he

theorem State.leaveQueue_absent (s : State) (t : TrunkNo) (hq : ∀ e ∈ s.callQueue, e.trunk ≠ t) : s.leaveQueue t = s := by
  have : s.callQueue.filter (fun e => e.trunk != t) = s.callQueue :=
    List.filter_eq_self.mpr fun e he => by simpa using hq e he
  simp only [State.leaveQueue, this]; rfl

theorem State.stopRegister_eq (s : State) (t : TrunkNo) (hq : ∀ e ∈ s.callQueue, e.trunk ≠ t) :
    s.stopRegister true t = s.endsWork t id := by
  unfold State.stopRegister
  dsimp only
  rw [State.endTone_eq, State.mapTrunk_mapTrunk, State.mapTrunk_trunk,
    State.leaveQueue_absent _ _ fun e he => hq e (by have := State.frees_callQueue _ _ e he; exact this), State.setFilter,
    State.frees_mapTrunk (s.mapTrunk t _) t _ _ hq, State.mapTrunk_mapTrunk]
  rfl

/-- A further change of the trunk's record after its register work has ended is one with the end of the work. -/
theorem State.endsWork_mapTrunk (s : State) (t : TrunkNo) (f g : Trunk → Trunk) (hq : ∀ e ∈ s.callQueue, e.trunk ≠ t) :
    (s.endsWork t f).mapTrunk t g = s.endsWork t fun r => g (f r) := by
  unfold State.endsWork
  rw [State.frees_mapTrunk (s.mapTrunk t _) t _ _ hq, State.mapTrunk_mapTrunk]

/-! ### The receiver of the control link -/

/-- R180: the receiver keeps the level of the sample it took. -/
@[simp] theorem LinkReceiver.sample_level (r : LinkReceiver) (level : Bool) : (r.sample level).1.level = level := by
  unfold LinkReceiver.sample; split <;> rfl

/-- R180: a character is complete only at the ninth sample of its stop bit, and the receiver then searches again. -/
theorem LinkReceiver.sample_completes {r : LinkReceiver} {level : Bool} {x : Character}
    (h : (r.sample level).2 = some x) :
    (∃ ones bits, r.search = .receiving 168 ones bits) ∧ (r.sample level).1.search = .searching := by
  unfold LinkReceiver.sample at h ⊢
  split at h
  · cases h
  · rename_i taken ones bits hs
    simp only [hs, receiveSample] at h ⊢
    split_ifs at h ⊢ with h1 h2 h3
    simp_all

/-- R180, R182: a sample that completes no character changes nothing but the receiver. -/
theorem State.hearSample_of_none {s : State} {level : Bool} (h : (s.clk.receiver.sample level).2 = none) :
    s.hearSample level = { s with clk := { s.clk with receiver := (s.clk.receiver.sample level).1 } } := by
  simp only [State.hearSample, h]

/-- R180, R182: a sample that completes a character hands it to frame assembly. -/
theorem State.hearSample_of_some {s : State} {level : Bool} {x : Character}
    (h : (s.clk.receiver.sample level).2 = some x) :
    s.hearSample level =
      ({ s with clk := { s.clk with receiver := (s.clk.receiver.sample level).1 } } : State).takeCharacter x := by
  simp only [State.hearSample, h]

/-! ### Call requests -/

theorem State.freeUnitNo_eq_some {s : State} {v : UnitNo} (h : (s.unit v).status = .free)
    (hw : ∀ w < v, (s.unit w).status ≠ .free) : s.freeUnitNo = some v := by
  rw [State.freeUnitNo, List.find?_eq_some_iff_getElem]
  refine ⟨by simp [h], v.val, by simp, by simp, fun j hj => ?_⟩
  have := hw ⟨j, by omega⟩ hj
  simpa using this

theorem State.freeUnitNo_eq_none {s : State} (h : ∀ v, (s.unit v).status ≠ .free) : s.freeUnitNo = none := by
  rw [State.freeUnitNo, List.find?_eq_none]
  intro v _; simpa using h v

theorem State.measuringUnit_eq_none {s : State} {t : TrunkNo} (h : ∀ v a d, (s.unit v).status ≠ .measuring t a d) :
    s.measuringUnit t = none := by
  rw [State.measuringUnit, List.findSome?_eq_none_iff]
  intro v _
  split
  · rename_i k a d hs
    split_ifs with hk
    · subst hk; exact absurd hs (h v a d)
    · rfl
  · rfl

theorem State.measuringUnit_eq_some {s : State} {t : TrunkNo} {v : UnitNo} {a d : Nat}
    (h : (s.unit v).status = .measuring t a d) (hw : ∀ w < v, ∀ a d, (s.unit w).status ≠ .measuring t a d) :
    s.measuringUnit t = some (v, d) := by
  rw [State.measuringUnit]
  have hl : List.finRange 8 = (List.finRange 8).take v.val ++ v :: (List.finRange 8).drop (v.val + 1) := by
    fin_cases v <;> rfl
  rw [hl, List.findSome?_append, List.findSome?_cons]
  refine (congrArg (Option.or · _) (List.findSome?_eq_none_iff.mpr fun w hm => ?_)).trans (by simp [h])
  have hv : w < v := by
    obtain ⟨i, hi, rfl⟩ := List.mem_take_iff_getElem.mp hm
    simp only [List.getElem_finRange, Fin.lt_def]
    simp at hi ⊢; omega
  split
  · rename_i k a d hs
    split_ifs with hk
    · subst hk; exact absurd hs (hw w hv a d)
    · rfl
  · rfl

theorem State.callRequest_asks (s : State) (t : TrunkNo) (role : UnitRole) :
    s.asksForUnit (s.callRequest t role) t role := by
  refine ⟨fun v a d hv hw => ?_, fun hn x hx => ?_⟩
  · simp only [State.callRequest, State.measuringUnit_eq_some hv hw, State.grantCall_eq]; rfl
  · have e : s.callRequest t role = x.grantOrQueue t role := by
      simp only [State.callRequest, State.measuringUnit_eq_none hn, List.any_eq_true, beq_iff_eq]
      rw [hx]
      by_cases h : ∃ r ∈ s.testQueue, r.trunk = t
      · simp only [if_pos h]; rfl
      · simp only [if_neg h]
    have hu : ∀ v, x.unit v = s.unit v := by intro v; rw [hx]; split_ifs <;> simp [State.unit]
    have hq : x.callQueue = s.callQueue := by rw [hx]; split_ifs <;> simp
    have hp : x.profileOf t = s.profileOf t := by
      rw [hx]; split_ifs <;> simp [State.profileOf, State.trunk]
    refine ⟨fun v hv hw => ?_, fun hv => ?_⟩
    · rw [e, State.grantOrQueue, State.freeUnitNo_eq_some (by rw [hu]; exact hv) (fun w h => by rw [hu]; exact hw w h)]
      exact State.grantCall_eq _ _ _ _
    · rw [e, State.grantOrQueue, State.freeUnitNo_eq_none (fun w => by rw [hu]; exact hv w)]
      simp only [State.withCallQueue, hq, List.length_append, List.length_singleton, hp]; rfl

end Sys2Proof.Machine
end

