-- ==== Sys2Proof/Laws/Decoding.lean ====
section
/-! SUPPORT. The decoding of the accepted code on entry to IDLE and to OUT-CLEARING, the ends of calls and the dissolving
of relay links, in the words of the statements (Claims.lean): one equation for each operation. -/

namespace Sys2Proof.Machine

/-! ### Decoding -/

theorem State.setRemoteBlock_eq (s : State) (t : TrunkNo) : s.setRemoteBlock t = s.blocks t := rfl

/-- R65: what a decoded signal does to the remote-block flag. -/
theorem State.noteIdle_eq (s : State) (t : TrunkNo) (sig : LineSignal) :
    s.noteIdle t sig = if sig = .bIdle ∨ (sig = .fIdle ∧ (s.trunk t).role = .bothWay) then s.unblocks t else s := by
  unfold State.noteIdle State.unblocks
  by_cases h : sig = .bIdle ∨ (sig = .fIdle ∧ (s.trunk t).role = .bothWay)
  · rw [if_pos h]; cases (s.trunk t).remoteBlock <;> simp_all
  · rw [if_neg h, if_neg (by simp_all)]

theorem State.unblocks_trunk (s : State) (t : TrunkNo) :
    (s.unblocks t).trunk t = { s.trunk t with remoteBlock := false } := by
  unfold State.unblocks
  split_ifs with h
  · simp [State.mapTrunk_trunk]
  · simp only [Bool.not_eq_true] at h; rw [← h]

/-- A decoded code is found in the table or not. -/
theorem State.decoded_some (s : State) (t : TrunkNo) {code : LineCode} (h : (s.trunk t).lcr.accepted = some code) :
    s.decoded t = some (code, decodeCode (s.profiles.get (s.trunk t).profile).codes
      (listened (s.trunk t).role (s.trunk t).state) code) := by
  simp only [State.decoded, h, Option.map_some, State.profileOf]

theorem State.decoded_none (s : State) (t : TrunkNo) (h : (s.trunk t).lcr.accepted = none) : s.decoded t = none := by
  simp only [State.decoded, h, Option.map_none]

/-- The first row of a listening table whose send code equals the code. -/
theorem decodeCode_cons (c : SendCodes) (sig : LineSignal) (a : LineAction) (rows : List (LineSignal × LineAction))
    (code : LineCode) : decodeCode c ((sig, a) :: rows) code =
      if code = c.of sig then some (sig, a) else decodeCode c rows code := by
  unfold decodeCode
  rw [List.find?_cons]
  by_cases h : code = c.of sig
  · simp [h]
  · rw [if_neg h, show (c.of sig == code) = false by simpa using Ne.symm h]

theorem decodeCode_nil (c : SendCodes) (code : LineCode) : decodeCode c [] code = none := rfl

theorem State.blocks_profile (s : State) (t : TrunkNo) :
    (s.blocks t).profiles.get ((s.blocks t).trunk t).profile = s.profiles.get (s.trunk t).profile := by
  unfold State.blocks; split_ifs
  · rfl
  · simp [State.mapTrunk_trunk]

theorem State.decodeIdle_eq (s : State) (t : TrunkNo) (hs : (s.trunk t).state = .idle) :
    s.decodeIdle t = s.idleDecodes t := by
  unfold State.decodeIdle State.idleDecodes
  dsimp only
  cases ha : (s.trunk t).lcr.accepted with
  | none => rw [s.decoded_none t ha]
  | some code =>
    have he : (s.blocks t).enter t .remoteBlocked = (s.blocks t).mapTrunk t fun r => { r with
        state := .remoteBlocked, sentCode := (s.profiles.get (s.trunk t).profile).codes.fIdle } := by
      rw [← s.blocks_profile t]; rfl
    rw [s.decoded_some t ha, hs]
    dsimp only
    rw [← he]
    generalize hc : (s.profiles.get (s.trunk t).profile).codes = c
    cases hr : (s.trunk t).role <;>
      simp only [listened, decodeCode_cons, decodeCode_nil, SendCodes.of, ne_eq, not_true_eq_false, if_false, if_true,
        reduceCtorEq]
    all_goals
      split_ifs <;>
        simp only [State.noteIdle_eq, hr, State.setRemoteBlock_eq, State.lineAnomaly, reduceCtorEq, if_true, if_false,
          false_or, or_false, and_true, and_false] <;> first | rfl | simp_all

/-! ### The ends of calls -/

theorem State.filtered_absent (s : State) (t : TrunkNo) :
    ∀ e ∈ ({ s with callQueue := s.callQueue.filter fun e => e.trunk != t } : State).callQueue, e.trunk ≠ t := by
  intro e he; simpa using (List.mem_filter.mp he).2

theorem State.filtered_eq (s : State) (t : TrunkNo) (hq : ∀ e ∈ s.callQueue, e.trunk ≠ t) :
    ({ s with callQueue := s.callQueue.filter fun e => e.trunk != t } : State) = s := by
  have := s.leaveQueue_absent t hq; exact this

/-- The end of register work of a trunk that holds no unit or waits for none. -/
theorem State.stopRegister_quits (s : State) (t : TrunkNo)
    (hq : (s.trunk t).unit = none ∨ ∀ e ∈ s.callQueue, e.trunk ≠ t) : s.stopRegister true t = s.quitsWork t id := by
  rcases hq with hu | hq
  · have hu' : (({ s with callQueue := s.callQueue.filter fun e => e.trunk != t } : State).trunk t).unit = none := hu
    simp only [State.stopRegister, State.quitsWork, State.endsWork, hu', State.endTone_eq, State.mapTrunk_trunk, hu,
      State.frees, State.setFilter, State.leaveQueue, State.mapTrunk_mapTrunk]
    rw [show ∀ (x : State) (f : Trunk → Trunk) q, (x.mapTrunk t f).withCallQueue q = (x.withCallQueue q).mapTrunk t f
      from fun _ _ _ => rfl, State.mapTrunk_mapTrunk]
    rfl
  · rw [State.stopRegister_eq s t hq, State.quitsWork, s.filtered_eq t hq]

/-- A further change of the trunk's record after its register work is one with the end of the work. -/
theorem State.quitsWork_mapTrunk (s : State) (t : TrunkNo) (f g : Trunk → Trunk) :
    (s.quitsWork t f).mapTrunk t g = s.quitsWork t fun r => g (f r) :=
  State.endsWork_mapTrunk _ t f g (s.filtered_absent t)

/-- Another trunk's grant leaves a trunk's record alone. -/
theorem State.granted_trunk (s : State) {t k : TrunkNo} (h : k ≠ t) (v : UnitNo) (role : UnitRole) :
    (s.granted v k role).trunk t = s.trunk t := by
  cases role
  · simp only [State.granted, State.sendsNext, State.sends]
    split_ifs <;> simp [State.mapTrunk_trunk_ne _ _ (Ne.symm h)]
  · simp [State.granted, State.mapTrunk_trunk_ne _ _ (Ne.symm h)]


theorem State.frees_trunk (s : State) (t : TrunkNo) (h : Option HeldUnit) (hq : ∀ e ∈ s.callQueue, e.trunk ≠ t) :
    (s.frees h).trunk t = s.trunk t := by
  cases h with
  | none => rfl
  | some h =>
    rw [State.frees]
    rcases (s.mapUnit h.unit _).handsOn_cases h.unit with ⟨e, rest, hc, k⟩ | ⟨r, rest, _, _, _, k⟩ | ⟨_, _, k⟩
    · rw [k, State.granted_trunk _ (hq e (by rw [show s.callQueue = _ from hc]; exact List.mem_cons_self))]; rfl
    · rw [k]; rfl
    · rw [k]; rfl

theorem State.endsWork_trunk (s : State) (t : TrunkNo) (f : Trunk → Trunk) (hq : ∀ e ∈ s.callQueue, e.trunk ≠ t) :
    (s.endsWork t f).trunk t = f { s.trunk t with
      decadic := none, tone := none, unit := none, lcr := { (s.trunk t).lcr with mode := .line } } := by
  rw [State.endsWork, State.frees_trunk _ t _ (by exact hq), State.mapTrunk_trunk]

theorem State.quitsWork_trunk (s : State) (t : TrunkNo) (f : Trunk → Trunk) :
    (s.quitsWork t f).trunk t = f { s.trunk t with
      decadic := none, tone := none, unit := none, lcr := { (s.trunk t).lcr with mode := .line } } :=
  State.endsWork_trunk _ t f (s.filtered_absent t)

/-- Two changes that agree on the trunk's record as its register work leaves it are one. -/
theorem State.quitsWork_congr (s : State) (t : TrunkNo) {f g : Trunk → Trunk}
    (h : f { s.trunk t with decadic := none, tone := none, unit := none, lcr := { (s.trunk t).lcr with mode := .line } } =
      g { s.trunk t with decadic := none, tone := none, unit := none, lcr := { (s.trunk t).lcr with mode := .line } }) :
    s.quitsWork t f = s.quitsWork t g := by
  unfold State.quitsWork State.endsWork
  exact congrArg (State.frees · _) (State.mapTrunk_congr _ _ h)

theorem State.handsOn_keeps (s : State) (v : UnitNo) :
    (s.handsOn v).profiles = s.profiles ∧ (s.handsOn v).tmb = s.tmb := by
  rcases s.handsOn_cases v with ⟨e, rest, _, k⟩ | ⟨_, _, _, _, _, k⟩ | ⟨_, _, k⟩
  · rw [k]; cases e.role
    · simp only [State.granted, State.sendsNext, State.sends]; split_ifs <;> exact ⟨rfl, rfl⟩
    · exact ⟨rfl, rfl⟩
  · rw [k]; exact ⟨rfl, rfl⟩
  · rw [k]; exact ⟨rfl, rfl⟩

theorem State.quitsWork_keeps (s : State) (t : TrunkNo) (f : Trunk → Trunk) :
    (s.quitsWork t f).profiles = s.profiles ∧ (s.quitsWork t f).tmb = s.tmb := by
  unfold State.quitsWork State.endsWork State.frees
  split
  · exact ⟨rfl, rfl⟩
  · exact ⟨(State.handsOn_keeps _ _).1, (State.handsOn_keeps _ _).2⟩

theorem State.enter_eq (s : State) (t : TrunkNo) (st : TrunkState) : s.enter t st = s.mapTrunk t fun r => { r with
    state := st, sentCode := sentCodeOf (s.profiles.get r.profile).codes r.role st } := by
  refine State.ext_parts rfl rfl rfl rfl (fun u => ?_) (fun _ => rfl) rfl rfl rfl rfl rfl rfl rfl rfl rfl rfl
  by_cases h : u = t
  · subst h; simp [State.enter, State.profileOf]
  · simp [State.enter, State.mapTrunk_trunk_ne _ _ h]

theorem State.idleDecodes_of_not_idle (s : State) (t : TrunkNo) (h : (s.trunk t).state ≠ .idle) : s.idleDecodes t = s := by
  unfold State.idleDecodes
  dsimp only
  split <;> simp [h]

/-- R38: the entry to a free state and its decoding. -/
theorem State.enterIdle_eq (s : State) (t : TrunkNo) : s.enterIdle t = (s.mapTrunk t fun r => { r with
    state := if r.localBlock then .localBlocked else .idle
    sentCode := sentCodeOf (s.profiles.get r.profile).codes r.role (if r.localBlock then .localBlocked else .idle)
      }).idleDecodes t := by
  unfold State.enterIdle
  by_cases h : (s.trunk t).localBlock = true
  · rw [if_pos h, State.idleDecodes_of_not_idle _ _ (by simp [h]), State.enter_eq]
    refine State.mapTrunk_congr _ _ ?_
    simp [h]
  · rw [if_neg h, State.decodeIdle_eq _ _ (by simp [State.enter]), State.enter_eq]
    refine congrArg (State.idleDecodes · t) (State.mapTrunk_congr _ _ ?_)
    simp [h]

/-- R41, R38: the end of a call of a trunk in no relay link, with the entry to a free state. -/
theorem State.endCall_eq (s : State) (t : TrunkNo) (cause : Cause)
    (hq : (s.trunk t).unit = none ∨ ∀ e ∈ s.callQueue, e.trunk ≠ t) :
    ((s.endCall true t cause).mapTrunk t fun r => { r with cause := none }).enterIdle t =
      (s.callEnds t cause).idleDecodes t := by
  rw [State.enterIdle_eq]
  refine congrArg (State.idleDecodes · t) ?_
  unfold State.endCall State.callEnds State.closeRecord
  rw [s.stopRegister_quits t hq]
  dsimp only
  rw [State.quitsWork_mapTrunk, State.quitsWork_trunk]
  dsimp only [id]
  cases h : (s.trunk t).record with
  | none =>
    dsimp only
    rw [State.mapTrunk_mapTrunk, State.mapTrunk_profiles, (State.quitsWork_keeps _ _ _).1, State.quitsWork_mapTrunk]
    refine State.quitsWork_congr _ _ ?_
    simp [h]
  | some k =>
    dsimp only
    simp only [State.submit_mapTrunk, State.quitsWork_mapTrunk, State.submit_profiles, (State.quitsWork_keeps _ _ _).1, (State.quitsWork_keeps _ _ _).2]

/-- R55, R62: a call that ends by itself. -/
theorem State.finishCall_eq (s : State) (t : TrunkNo) (hq : (s.trunk t).unit = none ∨ ∀ e ∈ s.callQueue, e.trunk ≠ t) :
    s.finishCall t = (s.callEnds t ((s.trunk t).cause.getD .normal)).idleDecodes t := s.endCall_eq t _ hq

theorem State.unblocks_callQueue (s : State) (t : TrunkNo) : (s.unblocks t).callQueue = s.callQueue := by
  unfold State.unblocks; split_ifs <;> simp

/-- R37 in OUT-CLEARING: the decoding of the accepted code, on entry or when it is accepted there. -/
theorem State.decodeClearing_eq (s : State) (t : TrunkNo) (hs : (s.trunk t).state = .outClearing)
    (hq : (s.trunk t).unit = none ∨ ∀ e ∈ s.callQueue, e.trunk ≠ t) : s.decodeClearing t = s.clearingDecodes t := by
  unfold State.decodeClearing State.clearingDecodes
  dsimp only
  cases ha : (s.trunk t).lcr.accepted with
  | none => rw [s.decoded_none t ha]
  | some code =>
    have hu := (s.unblocks t).finishCall_eq t (by rw [State.unblocks_trunk, State.unblocks_callQueue]; exact hq)
    rw [State.unblocks_trunk] at hu
    rw [s.decoded_some t ha, hs]
    dsimp only at hu ⊢
    rw [← hu, ← s.finishCall_eq t hq]
    generalize hc : (s.profiles.get (s.trunk t).profile).codes = c
    simp only [listened, decodeCode_cons, decodeCode_nil, SendCodes.of]
    split_ifs <;>
      simp only [State.noteIdle_eq, State.lineAnomaly, reduceCtorEq, if_true, if_false, or_false, false_and] <;>
      first | rfl | simp_all

/-- R54: clearing forward, when the register work has been ended. -/
theorem State.clearOut_eq (s : State) (t : TrunkNo) (hq : (s.trunk t).unit = none ∨ ∀ e ∈ s.callQueue, e.trunk ≠ t) :
    (s.stopRegister true t).clearOut t = (s.clearsOut t (s.trunk t).cause).clearingDecodes t := by
  have e : (((s.quitsWork t id).dropTimer t).enter t .outClearing).startTimer t .release
      ((((s.quitsWork t id).dropTimer t).enter t .outClearing).profileOf t).releaseTimer =
        s.clearsOut t (s.trunk t).cause := by
    unfold State.clearsOut
    simp only [State.enter_eq, State.dropTimer, State.startTimer, State.profileOf, State.quitsWork_mapTrunk,
      State.quitsWork_trunk, (State.quitsWork_keeps _ _ _).1, id]
    exact State.quitsWork_congr _ _ rfl
  have hu : ((s.clearsOut t (s.trunk t).cause).trunk t).unit = none := by rw [State.clearsOut, State.quitsWork_trunk]
  rw [s.stopRegister_quits t hq, State.clearOut, e]
  exact State.decodeClearing_eq _ t (by rw [State.clearsOut, State.quitsWork_trunk]) (.inl hu)

/-- R50: the unit clears forward of its own accord. -/
theorem State.forcedClear_eq (s : State) (t : TrunkNo) (cause : Cause)
    (hq : (s.trunk t).unit = none ∨ ∀ e ∈ s.callQueue, e.trunk ≠ t) :
    s.forcedClear t cause = (s.clearsOut t (some ((s.trunk t).cause.getD cause))).clearingDecodes t := by
  rw [State.forcedClear, State.clearOut_eq _ t (by simpa [State.giveCause] using hq)]
  refine congrArg (State.clearingDecodes · t) ?_
  have e : ∀ x : Option Cause, (s.giveCause t cause).clearsOut t x = s.clearsOut t x := by
    intro x
    have hu : ((s.giveCause t cause).trunk t).unit = (s.trunk t).unit := by simp [State.giveCause]
    unfold State.clearsOut State.quitsWork State.endsWork
    refine congrArg₂ State.frees ?_ hu
    have : ∀ (y : State) (q : List CallWait) (f g : Trunk → Trunk), (({ y.mapTrunk t f with callQueue := q } : State).mapTrunk t g)
        = ({ y with callQueue := q } : State).mapTrunk t fun r => g (f r) := fun y q f g =>
      State.mapTrunk_mapTrunk ({ y with callQueue := q } : State) t f g
    exact this s _ _ _
  rw [e]
  simp [State.giveCause]

/-- R41, R42: the end of a call with the entry to FAILED. -/
theorem State.enterFailed_eq (s : State) (t : TrunkNo) (recordCause failure : Cause) (hf : failure ≠ .holdLimit)
    (hq : (s.trunk t).unit = none ∨ ∀ e ∈ s.callQueue, e.trunk ≠ t) :
    (s.endCall true t recordCause).enterFailed t failure (s.trunk t).callRef = s.fails t recordCause failure := by
  have e : (((s.endCall true t recordCause).mapTrunk t fun r => { r with cause := some failure }).enter t .failed) =
      (match (s.trunk t).record with
        | none => s.quitsWork t fun r => { r with
            received := { digits := [], category := none, endReceived := false }
            send := { digits := [], endFlag := false, pos := 1 }
            timer := none, callRef := none, standing := none, record := none, cause := some failure, state := .failed
            sentCode := sentCodeOf (s.profiles.get r.profile).codes r.role .failed }
        | some k => (s.quitsWork t fun r => { r with
            received := { digits := [], category := none, endReceived := false }
            send := { digits := [], endFlag := false, pos := 1 }
            timer := none, callRef := none, standing := none, record := none, cause := some failure, state := .failed
            sentCode := sentCodeOf (s.profiles.get r.profile).codes r.role .failed }).submit (some t)
              (.released { record := k, releaseTime := s.tmb.counter, cause := recordCause })) := by
    unfold State.endCall State.closeRecord
    rw [s.stopRegister_quits t hq, State.enter_eq]
    dsimp only
    rw [State.quitsWork_mapTrunk, State.quitsWork_trunk]
    dsimp only [id]
    cases h : (s.trunk t).record with
    | none =>
      dsimp only
      rw [State.mapTrunk_mapTrunk, State.mapTrunk_profiles, (State.quitsWork_keeps _ _ _).1, State.quitsWork_mapTrunk]
      exact State.quitsWork_congr _ _ (by simp [h])
    | some k =>
      simp only [State.submit_mapTrunk, State.quitsWork_mapTrunk, State.submit_profiles, (State.quitsWork_keeps _ _ _).1, (State.quitsWork_keeps _ _ _).2]
  unfold State.enterFailed State.fails
  dsimp only
  rw [e, if_neg hf]
  have key : ∀ z : State, z.tmb = s.tmb → z.capture .trunkFailed (some t) = { z with
      fault := match z.fault.held with
        | none => { held := some { kind := .trunkFailed, trunk := some t, time := s.tmb.counter }, further := false }
        | some _ => { z.fault with further := true } } := by
    intro z hz; rw [State.capture, hz]; cases z.fault.held <;> rfl
  refine key _ ((State.submit_tmb _ _ _).trans ?_)
  cases (s.trunk t).record <;> simp [(State.quitsWork_keeps _ _ _).2]

/-! ### Relay links -/

theorem State.dissolve_eq (s : State) (inlet outlet : TrunkNo) (ending : LinkEnding) (outcome : Option RegResult) :
    s.dissolve inlet outlet ending outcome = s.linkEnds inlet outlet ending outcome := rfl

/-- R164: an inlet in IN-SELECTING takes the outcome carried back. -/
theorem State.takeCarried_eq (s : State) (inlet : TrunkNo) (o : RegOutcome) (hs : (s.trunk inlet).state = .inSelecting)
    (hu : ∀ c, (s.trunk inlet).tone = some (.receiver c) → (s.trunk inlet).unit.isSome = true) :
    s.takeCarried inlet o = s.inletTakes inlet o := by
  unfold State.takeCarried State.inletTakes
  cases ht : (s.trunk inlet).tone with
  | none => exact s.inOutcome_eq inlet o hs
  | some x =>
    cases x with
    | sender c => exact s.inOutcome_eq inlet o hs
    | receiver c =>
      obtain ⟨h, hh⟩ := Option.isSome_iff_exists.mp (hu c ht)
      dsimp only
      rw [hh]
      dsimp only
      by_cases hp : c.pending = none
      · rw [if_pos hp, s.outsideOutcome_eq inlet c o hh hs hp]
      · rw [if_neg hp, State.outsideOutcome, if_pos (Option.isSome_iff_ne_none.mpr hp)]

/-- R164: an outlet carries an outcome back. -/
theorem State.carryBack_eq (s : State) (inlet outlet : TrunkNo) (o : RegOutcome) (hn : inlet ≠ outlet)
    (hl : (s.trunk outlet).link = some { peer := inlet, part := .outlet }) (hs : (s.trunk inlet).state = .inSelecting)
    (hu : ∀ c, (s.trunk inlet).tone = some (.receiver c) → (s.trunk inlet).unit.isSome = true) :
    s.carryBack outlet o = s.carries inlet outlet o.carried := by
  have ht : ∀ e r, (s.linkEnds inlet outlet e r).trunk inlet = { s.trunk inlet with link := none, linkRecord := none } := by
    intro e r; simp [State.linkEnds, State.mapTrunk_trunk_ne _ _ hn]
  have hr : o.carried.result = (match o.carried with
    | .complete => .complete
    | .reject cause => if cause = .unobtainable then .unobtainable else .congestion) := by
    cases h : o.carried with
    | complete => rfl
    | reject c => exact Cause.result_eq c
  simp only [State.carryBack, Trunk.inlet, hl, State.dissolve_eq]
  rw [State.takeCarried_eq _ _ _ (by rw [ht]; exact hs) (by rw [ht]; exact hu), hr]
  rfl

/-- R165: the link of an inlet dissolves from its side. -/
theorem State.inletGone_eq (s : State) (inlet outlet : TrunkNo) (hn : inlet ≠ outlet)
    (hl : (s.trunk inlet).link = some { peer := outlet, part := .inlet })
    (hq : (s.trunk outlet).unit = none ∨ ∀ e ∈ s.callQueue, e.trunk ≠ outlet) :
    s.inletGone inlet = s.inletLeaves inlet outlet := by
  have hu : ((s.linkEnds inlet outlet .inlet none).trunk outlet).unit = (s.trunk outlet).unit := by
    simp [State.linkEnds, State.mapTrunk_trunk_ne _ _ (Ne.symm hn)]
  have hc : (s.linkEnds inlet outlet .inlet none).callQueue = s.callQueue := by simp [State.linkEnds]
  simp only [State.inletGone, Trunk.outlet, hl, State.dissolve_eq]
  rw [State.forcedClear_eq _ _ _ (by rw [hu, hc]; exact hq)]
  rfl

end Sys2Proof.Machine
end

