-- ==== Sys2Proof/Laws/PerInstr.lean ====
section
/-! SUPPORT. The shape of every command as syntax, one lemma per constructor: what it carries decides whether it is well
formed. -/

namespace Sys2Proof

/-- The payload that a host command carries (00_scope.md, Messages). -/
def Instr.payload? : Instr → Option (List Byte)
  | .setProfile p | .getProfile p | .setTrunk p | .setAnalysis p | .getAnalysis p | .setReporting p | .seize p
  | .addDigits p | .acceptDigits p | .answer p | .clearBack p | .release p | .block p | .unblock p | .resetTrunk p
  | .queryTrunk p | .measure p | .queryPool p | .readTraffic p | .poll p | .readFault p | .clearFault p | .identify p
  | .reset _ p | .timeMark _ p => some p
  | _ => none

/-- The frame that a frame judged at the unit carries (R183). -/
def Instr.frame? : Instr → Option Frame
  | .commandFrame f => some f
  | _ => none

/-- A command with a payload is well formed where that fits a frame (R182), a frame where it has the shape of an ended
frame (R183), and every other command always: its operands' types are its shape. -/
def Laws.Shape.Statement (i : Instr) : Prop :=
  (∀ p, i.payload? = some p → (i.wellFormed = true ↔ p.length ≤ 249)) ∧
  (∀ f, i.frame? = some f → i.wellFormed = f.wellFormed) ∧
  (i.payload? = none → i.frame? = none → i.wellFormed = true)

/-- A command that carries a payload has the shape of its payload. -/
theorem Laws.shape_of_payload {i : Instr} {p : List Byte} (h : i.payload? = some p) (k : i.frame? = none)
    (w : i.wellFormed = payloadFits p) : Laws.Shape.Statement i := by
  refine ⟨fun q hq => ?_, fun f hf => ?_, fun hn => ?_⟩
  · rw [h] at hq
    cases hq
    simp [w, payloadFits]
  · rw [k] at hf
    cases hf
  · rw [h] at hn
    cases hn

/-- A command that carries neither a payload nor a frame is always well formed. -/
theorem Laws.shape_of_event {i : Instr} (h : i.payload? = none) (k : i.frame? = none) (w : i.wellFormed = true) :
    Laws.Shape.Statement i := by
  refine ⟨fun q hq => ?_, fun f hf => ?_, fun _ _ => w⟩
  · rw [h] at hq
    cases hq
  · rw [k] at hf
    cases hf

theorem Laws.Shape.powerOnReset (straps : Straps) : Laws.Shape.Statement (.powerOnReset straps) :=
  Laws.shape_of_event rfl rfl rfl
theorem Laws.Shape.pinReset (straps : Straps) : Laws.Shape.Statement (.pinReset straps) :=
  Laws.shape_of_event rfl rfl rfl
theorem Laws.Shape.fsEdge : Laws.Shape.Statement .fsEdge := Laws.shape_of_event rfl rfl rfl
theorem Laws.Shape.fsLoss : Laws.Shape.Statement .fsLoss := Laws.shape_of_event rfl rfl rfl
theorem Laws.Shape.millisecondEvent : Laws.Shape.Statement .millisecondEvent := Laws.shape_of_event rfl rfl rfl
theorem Laws.Shape.transmitFrameEvent : Laws.Shape.Statement .transmitFrameEvent := Laws.shape_of_event rfl rfl rfl
theorem Laws.Shape.durationTick : Laws.Shape.Statement .durationTick := Laws.shape_of_event rfl rfl rfl
theorem Laws.Shape.huntAlignmentWord (frame : SigFrame) : Laws.Shape.Statement (.huntAlignmentWord frame) :=
  Laws.shape_of_event rfl rfl rfl
theorem Laws.Shape.receivedFrameEvent (frame : SigFrame) : Laws.Shape.Statement (.receivedFrameEvent frame) :=
  Laws.shape_of_event rfl rfl rfl
theorem Laws.Shape.holdAlignmentWord (frame : SigFrame) : Laws.Shape.Statement (.holdAlignmentWord frame) :=
  Laws.shape_of_event rfl rfl rfl
theorem Laws.Shape.holdLimitExpiry : Laws.Shape.Statement .holdLimitExpiry := Laws.shape_of_event rfl rfl rfl
theorem Laws.Shape.ackTimerExpiry (t : TrunkNo) : Laws.Shape.Statement (.ackTimerExpiry t) :=
  Laws.shape_of_event rfl rfl rfl
theorem Laws.Shape.answerWaitExpiry (t : TrunkNo) : Laws.Shape.Statement (.answerWaitExpiry t) :=
  Laws.shape_of_event rfl rfl rfl
theorem Laws.Shape.clearBackTimerExpiry (t : TrunkNo) : Laws.Shape.Statement (.clearBackTimerExpiry t) :=
  Laws.shape_of_event rfl rfl rfl
theorem Laws.Shape.releaseTimerExpiry (t : TrunkNo) : Laws.Shape.Statement (.releaseTimerExpiry t) :=
  Laws.shape_of_event rfl rfl rfl
theorem Laws.Shape.guardTimerExpiry (t : TrunkNo) : Laws.Shape.Statement (.guardTimerExpiry t) :=
  Laws.shape_of_event rfl rfl rfl
theorem Laws.Shape.sendBreakExpiry (t : TrunkNo) : Laws.Shape.Statement (.sendBreakExpiry t) :=
  Laws.shape_of_event rfl rfl rfl
theorem Laws.Shape.sendMakeExpiry (t : TrunkNo) : Laws.Shape.Statement (.sendMakeExpiry t) :=
  Laws.shape_of_event rfl rfl rfl
theorem Laws.Shape.pauseTimerExpiry (t : TrunkNo) : Laws.Shape.Statement (.pauseTimerExpiry t) :=
  Laws.shape_of_event rfl rfl rfl
theorem Laws.Shape.decadicSenderDigitWait (t : TrunkNo) : Laws.Shape.Statement (.decadicSenderDigitWait t) :=
  Laws.shape_of_event rfl rfl rfl
theorem Laws.Shape.digitEndTimerExpiry (t : TrunkNo) : Laws.Shape.Statement (.digitEndTimerExpiry t) :=
  Laws.shape_of_event rfl rfl rfl
theorem Laws.Shape.clearRecognitionExpiry (t : TrunkNo) : Laws.Shape.Statement (.clearRecognitionExpiry t) :=
  Laws.shape_of_event rfl rfl rfl
theorem Laws.Shape.decadicDigitWaitExpiry (t : TrunkNo) : Laws.Shape.Statement (.decadicDigitWaitExpiry t) :=
  Laws.shape_of_event rfl rfl rfl
theorem Laws.Shape.callWaitExpiry (t : TrunkNo) : Laws.Shape.Statement (.callWaitExpiry t) :=
  Laws.shape_of_event rfl rfl rfl
theorem Laws.Shape.testWaitExpiry (t : TrunkNo) : Laws.Shape.Statement (.testWaitExpiry t) :=
  Laws.shape_of_event rfl rfl rfl
theorem Laws.Shape.toneBlockEvent (u : UnitNo) : Laws.Shape.Statement (.toneBlockEvent u) :=
  Laws.shape_of_event rfl rfl rfl
theorem Laws.Shape.senderDigitWaitExpiry (t : TrunkNo) : Laws.Shape.Statement (.senderDigitWaitExpiry t) :=
  Laws.shape_of_event rfl rfl rfl
theorem Laws.Shape.senderInterlockExpiry (t : TrunkNo) : Laws.Shape.Statement (.senderInterlockExpiry t) :=
  Laws.shape_of_event rfl rfl rfl
theorem Laws.Shape.receiverInterlockExpiry (t : TrunkNo) : Laws.Shape.Statement (.receiverInterlockExpiry t) :=
  Laws.shape_of_event rfl rfl rfl
theorem Laws.Shape.receiverDigitWaitExpiry (t : TrunkNo) : Laws.Shape.Statement (.receiverDigitWaitExpiry t) :=
  Laws.shape_of_event rfl rfl rfl
theorem Laws.Shape.pulseTimerExpiry (t : TrunkNo) : Laws.Shape.Statement (.pulseTimerExpiry t) :=
  Laws.shape_of_event rfl rfl rfl
theorem Laws.Shape.hostDecisionWaitExpiry (t : TrunkNo) : Laws.Shape.Statement (.hostDecisionWaitExpiry t) :=
  Laws.shape_of_event rfl rfl rfl
theorem Laws.Shape.attnHoldTimeReached : Laws.Shape.Statement .attnHoldTimeReached := Laws.shape_of_event rfl rfl rfl
theorem Laws.Shape.commandFrame (frame : Frame) : Laws.Shape.Statement (.commandFrame frame) := by
  refine ⟨fun q hq => ?_, fun f hf => ?_, fun _ hn => ?_⟩
  · cases hq
  · cases hf
    rfl
  · cases hn
theorem Laws.Shape.replyComplete : Laws.Shape.Statement .replyComplete := Laws.shape_of_event rfl rfl rfl
theorem Laws.Shape.setProfile (payload : List Byte) : Laws.Shape.Statement (.setProfile payload) :=
  Laws.shape_of_payload rfl rfl rfl
theorem Laws.Shape.getProfile (payload : List Byte) : Laws.Shape.Statement (.getProfile payload) :=
  Laws.shape_of_payload rfl rfl rfl
theorem Laws.Shape.setTrunk (payload : List Byte) : Laws.Shape.Statement (.setTrunk payload) :=
  Laws.shape_of_payload rfl rfl rfl
theorem Laws.Shape.setAnalysis (payload : List Byte) : Laws.Shape.Statement (.setAnalysis payload) :=
  Laws.shape_of_payload rfl rfl rfl
theorem Laws.Shape.getAnalysis (payload : List Byte) : Laws.Shape.Statement (.getAnalysis payload) :=
  Laws.shape_of_payload rfl rfl rfl
theorem Laws.Shape.setReporting (payload : List Byte) : Laws.Shape.Statement (.setReporting payload) :=
  Laws.shape_of_payload rfl rfl rfl
theorem Laws.Shape.seize (payload : List Byte) : Laws.Shape.Statement (.seize payload) :=
  Laws.shape_of_payload rfl rfl rfl
theorem Laws.Shape.addDigits (payload : List Byte) : Laws.Shape.Statement (.addDigits payload) :=
  Laws.shape_of_payload rfl rfl rfl
theorem Laws.Shape.acceptDigits (payload : List Byte) : Laws.Shape.Statement (.acceptDigits payload) :=
  Laws.shape_of_payload rfl rfl rfl
theorem Laws.Shape.answer (payload : List Byte) : Laws.Shape.Statement (.answer payload) :=
  Laws.shape_of_payload rfl rfl rfl
theorem Laws.Shape.clearBack (payload : List Byte) : Laws.Shape.Statement (.clearBack payload) :=
  Laws.shape_of_payload rfl rfl rfl
theorem Laws.Shape.release (payload : List Byte) : Laws.Shape.Statement (.release payload) :=
  Laws.shape_of_payload rfl rfl rfl
theorem Laws.Shape.block (payload : List Byte) : Laws.Shape.Statement (.block payload) :=
  Laws.shape_of_payload rfl rfl rfl
theorem Laws.Shape.unblock (payload : List Byte) : Laws.Shape.Statement (.unblock payload) :=
  Laws.shape_of_payload rfl rfl rfl
theorem Laws.Shape.resetTrunk (payload : List Byte) : Laws.Shape.Statement (.resetTrunk payload) :=
  Laws.shape_of_payload rfl rfl rfl
theorem Laws.Shape.queryTrunk (payload : List Byte) : Laws.Shape.Statement (.queryTrunk payload) :=
  Laws.shape_of_payload rfl rfl rfl
theorem Laws.Shape.measure (payload : List Byte) : Laws.Shape.Statement (.measure payload) :=
  Laws.shape_of_payload rfl rfl rfl
theorem Laws.Shape.queryPool (payload : List Byte) : Laws.Shape.Statement (.queryPool payload) :=
  Laws.shape_of_payload rfl rfl rfl
theorem Laws.Shape.readTraffic (payload : List Byte) : Laws.Shape.Statement (.readTraffic payload) :=
  Laws.shape_of_payload rfl rfl rfl
theorem Laws.Shape.poll (payload : List Byte) : Laws.Shape.Statement (.poll payload) :=
  Laws.shape_of_payload rfl rfl rfl
theorem Laws.Shape.readFault (payload : List Byte) : Laws.Shape.Statement (.readFault payload) :=
  Laws.shape_of_payload rfl rfl rfl
theorem Laws.Shape.clearFault (payload : List Byte) : Laws.Shape.Statement (.clearFault payload) :=
  Laws.shape_of_payload rfl rfl rfl
theorem Laws.Shape.identify (payload : List Byte) : Laws.Shape.Statement (.identify payload) :=
  Laws.shape_of_payload rfl rfl rfl
theorem Laws.Shape.reset (dest : Dest) (payload : List Byte) : Laws.Shape.Statement (.reset dest payload) :=
  Laws.shape_of_payload rfl rfl rfl
theorem Laws.Shape.timeMark (dest : Dest) (payload : List Byte) : Laws.Shape.Statement (.timeMark dest payload) :=
  Laws.shape_of_payload rfl rfl rfl
theorem Laws.Shape.sampleEvent (lrx swx : Vector Byte 32) : Laws.Shape.Statement (.sampleEvent lrx swx) :=
  Laws.shape_of_event rfl rfl rfl
theorem Laws.Shape.characterReceived (samples : CharSamples) : Laws.Shape.Statement (.characterReceived samples) :=
  Laws.shape_of_event rfl rfl rfl

end Sys2Proof
end

