-- ==== Sys2Proof/Tests/Slice0.lean ====
section
/-! SUPPORT. Tests with results that the manual states, one step each, and for every statement with hypotheses a witness:
a concrete state and operands that meet them. -/

namespace Sys2Proof.Tests

set_option Elab.async false

open Sys2Proof Sys2Proof.Machine

/-! ### Helpers -/

/-- An aligned unit with FS present, one profile in all four places, and one trunk record at T0. -/
def lab (r : Trunk) (p : Profile := {}) (a : Machine.Alignment := .aligned) : State :=
  { State.reset with
    tmb := { fsPresent := true, source := .highway }
    hwi := { alignment := a }
    profiles := Vector.replicate 4 p
    trunks := State.reset.trunks.set 0 r }

/-- The state after a command. -/
def after (c : Instr) (s : State) : State :=
  match exec c s with
  | .next u => u
  | _ => s

/-- The data bytes of the reply on RPL. -/
def replyData (s : State) : Option (List Byte) := s.clk.reply.map (·.map (·.extractLsb' 1 8))

/-- The data bytes of the reply that a command leaves. -/
def replied (c : Instr) (s : State) : Option (List Byte) := replyData (after c s)

/-- An equipped trunk of a role in a state. -/
def trunkIn (role : Role) (st : TrunkState) : Trunk := { role := role, state := st, callRef := some 7 }

/-- An open record of a call on T0. -/
def openCall (d : Direction) : CallRecord := { ref := 7, trunk := 0, direction := d, category := none, seizeTime := 0 }

/-- A signalling frame that gives every trunk one code. -/
def frameOfCode (c : LineCode) : SigFrame := frameOf (List.replicate 32 c)

/-- Profiles of the other register methods. -/
def decadicProfile : Profile := { method := .decadic }
/-- A TONE profile. -/
def toneProfile : Profile := { method := .tone }

/-! ### Well-formed commands -/

theorem test_payload_of_249_fits : (Instr.seize (List.replicate 249 0)).wellFormed = true := by decide +kernel
theorem test_payload_of_250_refused : (Instr.seize (List.replicate 250 0)).wellFormed = false := by decide +kernel
theorem test_empty_frame_refused : (Instr.commandFrame ⟨.own, false, []⟩).wellFormed = false := by decide
theorem test_short_frame_refused : (Instr.commandFrame ⟨.own, false, [2, 0x13, 3]⟩).wellFormed = false := by decide
theorem test_long_frame_refused : (Instr.commandFrame ⟨.own, false, [1, 0x30, 0, 0]⟩).wellFormed = false := by decide
theorem test_length_251_with_data_refused : (Instr.commandFrame ⟨.own, true, [251, 0x30, 0]⟩).wellFormed = false := by
  decide
theorem test_readable_length_alone_refused : (Instr.commandFrame ⟨.own, false, [1]⟩).wellFormed = false := by decide
theorem test_frame_accepted : (Instr.commandFrame ⟨.own, false, [2, 0x13, 3, 0xE8]⟩).wellFormed = true := by decide

/-! ### Resets and straps -/

/-- R181, the unit strapped with ADDR4, ADDR2 and ADDRP low: address 20, valid. -/
theorem test_straps_of_address_20 :
    let u := after (.powerOnReset { rate := 7, addr := 0b01011, addrp := false }) State.reset
    u.clk.address = 20 ∧ u.clk.addressValid = true ∧ u.clk.rate = 7 ∧ u.faultPin = false := by decide +kernel

/-- R181: the same straps with ADDRP high have an even number of low pins, and FAULT is asserted (R198). -/
theorem test_wrong_parity_asserts_fault :
    let u := after (.pinReset { rate := 0, addr := 0b01011, addrp := true }) State.reset
    u.clk.addressValid = false ∧ u.faultPin = true ∧
      u.rqa.entries.map (·.body) = [.startup .pin 1 20 false] := by decide +kernel

/-! ### Alignment (01, Sample Alignment Sequence) -/

/-- Step 4: the fourth wrong word at 50,008. -/
theorem test_fourth_wrong_word_starts_hold :
    let s := lab (trunkIn .incoming .idle)
    let s := { s with tmb := { s.tmb with counter := 50008 }, hwi := { s.hwi with wrong := 3 } }
    let u := after (.receivedFrameEvent 0) s
    u.hwi.alignment = .hold ∧ u.hwi.holdStart = some 50008 ∧ u.hwi.correct = 0 ∧
      u.rqa.entries.map (·.body) = [.startup .power 1 0 true, .holdStart .alignment] ∧
      u.fault.held = some { kind := .holdStart, trunk := none, time := 50008 } := by decide +kernel

/-- Step 9: the third correct word at 50,018 ends the hold of 10 ms, and the frame is taken. -/
theorem test_third_correct_word_ends_hold :
    let s := lab (trunkIn .incoming .localBlocked) {} .hold
    let s := { s with
      tmb := { s.tmb with counter := 50018 }
      hwi := { s.hwi with correct := 2, holdStart := some 50008, holdTimer := some ⟨10, 1990⟩ } }
    let u := after (.holdAlignmentWord (frameOfCode 1)) s
    u.hwi.alignment = .aligned ∧ u.rqa.entries.map (·.body) = [.startup .power 1 0 true, .holdEnd 10] ∧
      (u.trunk 0).lcr.candidate = some ⟨1, 1⟩ := by decide +kernel

/-- Step 6: a wrong word in HOLD clears the count. -/
theorem test_wrong_word_in_hold :
    let s := lab (trunkIn .incoming .idle) {} .hold
    let s := { s with hwi := { s.hwi with correct := 1, holdStart := some 0, holdTimer := some ⟨0, 2000⟩ } }
    (after (.holdAlignmentWord 0) s).hwi.correct = 0 := by decide +kernel

/-- R2, R9: FS loss in ALIGNED starts a hold with cause FS-LOSS. -/
theorem test_fs_loss_starts_hold :
    let u := after .fsLoss (lab (trunkIn .incoming .idle))
    u.tmb.fsPresent = false ∧ u.hwi.alignment = .hold ∧
      u.rqa.entries.map (·.body) = [.startup .power 1 0 true, .holdStart .fsLoss] := by decide +kernel

/-- R7: the third correct word in SEARCHING gives ALIGNED and its frame is taken. -/
theorem test_trial_gives_alignment :
    let s := lab (trunkIn .incoming .localBlocked) {} .searching
    let s := { s with hwi := { s.hwi with trial := true, correct := 2 } }
    let u := after (.huntAlignmentWord (frameOfCode 1)) s
    u.hwi.alignment = .aligned ∧ (u.trunk 0).lcr.candidate = some ⟨1, 1⟩ := by decide +kernel

/-- R2: an FS edge makes the source HIGHWAY. -/
theorem test_fs_edge : (after .fsEdge State.reset).tmb.source = .highway := by decide +kernel

/-! ### Time (R3, R4, R5, R10) -/

/-- A timer with 300 events left keeps them in HOLD. -/
theorem test_hold_suspends_a_timer :
    let s := lab { trunkIn .outgoing .outSeizing with timer := some ⟨.ack, 300⟩ } {} .hold
    ((after .millisecondEvent s).trunk 0).timer = some ⟨.ack, 300⟩ := by decide +kernel

/-- Every tenth millisecond event makes a duration tick, every second a transmit frame event. -/
theorem test_dividers :
    let s := lab {}
    let s := { s with tmb := { s.tmb with tickDiv := 9, frameDiv := 1, counter := 0xFFFFFFFF } }
    let u := after .millisecondEvent s
    u.tmb.tickDue = true ∧ u.tmb.frameDue = true ∧ u.tmb.counter = 0 := by decide +kernel

/-- R1, R29, R35: after reset every trunk sends code 7 behind the alignment word. -/
theorem test_transmit_frame :
    let s := { State.reset with tmb := { frameDue := true } }
    (after .transmitFrameEvent s).sgtx = some (0b01110010#8 ++ BitVec.allOnes 96) := by decide +kernel

/-- 09, Sample Call Record, step 4: the tick after the answer. -/
theorem test_duration_tick :
    let r := { trunkIn .incoming .inAnswered with record := some { openCall .incoming with occupancy := 200 }, group := 3 }
    let s := lab r
    let s := { s with tmb := { s.tmb with tickDue := true } }
    let u := after .durationTick s
    ((u.trunk 0).record.map fun k => (k.occupancy, k.conversation)) = some (201, 1) ∧
      (u.traffic.get 3).occupancy = 1 := by decide +kernel

/-! ### Line codes (01, Sample Line-Code Filtering) -/

/-- Step 12: the fourth 0 in a row is accepted: F-SEIZE in IDLE. -/
theorem test_persistent_code_is_accepted :
    let r := { trunkIn .incoming .idle with lcr := { accepted := some 1, candidate := some ⟨0, 3⟩ } }
    let u := after (.receivedFrameEvent (frameOfCode 0)) (lab r { linePersistence := 4 })
    (u.trunk 0).lcr.accepted = some 0 ∧ (u.trunk 0).lcr.candidate = none ∧ (u.trunk 0).state = .inWaitAnswer ∧
      u.sequence = 1 := by decide +kernel

/-- Step 8: a third code restarts the candidate. -/
theorem test_other_code_restarts_the_candidate :
    let r := { trunkIn .incoming .idle with lcr := { accepted := some 1, candidate := some ⟨0, 2⟩ } }
    let u := after (.receivedFrameEvent (frameOfCode 5)) (lab r { linePersistence := 4 })
    (u.trunk 0).lcr.candidate = some ⟨5, 1⟩ := by decide +kernel

/-! ### Decadic digits (04, Sample Received Digit Sequence) -/

/-- The table of the sample: pattern 3, FIXED with length 3, for every group. -/
def threeTable (s : State) : State :=
  let e : AnalysisEntry :=
    { valid := true, groups := 255, patternLength := 1, pattern := #v[some 3, none, none, none, none, none]
      outcome := .fixed, length := 3 }
  { s with analysis := s.analysis.set 0 e }

/-- The receiving trunk of the sample. -/
def dialled (c : DecadicReceiver) (ds : List Digit) : State :=
  threeTable (lab { trunkIn .incoming .inSelecting with
    decadic := some (.receiving c), received := { digits := ds }
    lcr := { accepted := some 0, mode := .pulse } } { decadicProfile with mode := .table })

/-- Step 8: three pulses give the digit 3. -/
theorem test_three_pulses_store_a_digit :
    let u := after (.digitEndTimerExpiry 0) (dialled ⟨.counting, .made, 200, 3, none, some 0, none, false⟩ [])
    (u.trunk 0).received.digits = [3] ∧ (u.trunk 0).standing = some .undecided ∧
      (u.trunk 0).decadic = some (.receiving ⟨.between, .made, 200, 0, some ⟨.interDigit, 10000⟩, none, none, false⟩) := by
  decide +kernel

/-- Step 18: the third digit completes the number. -/
theorem test_last_digit_completes :
    let u := after (.digitEndTimerExpiry 0) (dialled ⟨.counting, .made, 200, 1, none, some 0, none, false⟩ [3, 2])
    (u.trunk 0).state = .inWaitAnswer ∧ (u.trunk 0).lcr.mode = .line ∧
      u.rqa.entries.map (·.body) = [.startup .power 1 0 true, .digitsComplete (some 7) none [3, 2, 1]] := by
  decide +kernel

/-- Step 10: a break of 120 ms is a distortion: DIGIT-ERROR, REJECTING. -/
theorem test_long_break_is_rejected :
    let s := dialled ⟨.counting, .broken, 120, 0, none, none, some 130, false⟩ [3]
    let s := s.mapTrunk 0 fun r => { r with lcr := { r.lcr with accepted := some 1, candidate := some ⟨0, 2⟩ } }
    let u := after (.receivedFrameEvent (frameOfCode 0)) s
    ((u.trunk 0).receiver.map (·.phase)) = some .rejecting ∧
      u.rqa.entries.map (·.body) = [.startup .power 1 0 true, .lineAnomaly 0 .digitError] := by decide +kernel

/-- Step 13: the rejected digit ends with the inter-digit wait in full. -/
theorem test_rejected_digit_ends :
    let u := after (.digitEndTimerExpiry 0) (dialled ⟨.rejecting, .made, 200, 0, none, some 0, none, false⟩ [3])
    ((u.trunk 0).receiver.map fun c => (c.phase, c.wait)) = some (.between, some ⟨.interDigit, 10000⟩) := by
  decide +kernel

/-- R75, R74: the digit 0 is ten breaks. -/
theorem test_zero_is_ten_breaks :
    let r := { trunkIn .outgoing .outSelecting with
      decadic := some (.sending ⟨.pause, 0, false, some 0⟩), send := { digits := [0] } }
    let u := after (.pauseTimerExpiry 0) (lab r decadicProfile)
    (u.trunk 0).decadic = some (.sending ⟨.breaking, 10, false, some 60⟩) ∧ (u.trunk 0).sentCode = 1 := by
  decide +kernel

/-! ### Tone arithmetic (06) -/

/-- The table of R103. -/
theorem test_expansion :
    [0x00, 0x80, 0x0F, 0x10, 0x4F, 0x50, 0xD9, 0x7F, 0xFF].map expand =
      [0, 0, 30, 33, 975, 1023, -1599, 8031, -8031] := by decide +kernel

/-- The table of R104. -/
theorem test_compression :
    [31, 32, 999, 1000, -1, -1600, 2817].map compress = [0x0F, 0x10, 0x4F, 0x50, 0x00, 0xD9, 0x66] := by decide +kernel

/-- The steps of R107: the 500 Hz resonator fed 100, 0, 0, 0. -/
theorem test_resonator_steps :
    ([0, 0, 0].foldl (fun a x => a ++ [(a.getLastD {}).step 30274 x]) [(({} : Resonator).step 30274 100)]).map (·.s1) =
      [100, 185, 242, 262] := by decide +kernel

/-- R107: the 2,050 Hz resonator rounds a negative product toward minus infinity. -/
theorem test_resonator_floor : ((⟨100, 0⟩ : Resonator).step (-1286) 0).s1 = -8 := by decide +kernel

/-- Worked Decisions: FT1's pair, and NONE for each changed figure. -/
theorem test_block_decision :
    let p := fun (a b c : Nat) => [a, b, c, 9000000, 9000000, 9000000]
    decidePair 64 131200000 (p 6400000000 4096000000 15000000) = some (0, 1) ∧
      decidePair 64 131200000 (p 6400000000 400000000 15000000) = none ∧
      decidePair 64 200000000 (p 6400000000 4096000000 15000000) = none ∧
      decidePair 64 131200000 (p 6400000000 4096000000 300000000) = none ∧
      decidePair 64 131200000 (p 23040000 23040000 1000000) = none := by decide +kernel

/-- The decisions of the Sample Recognition Sequence, and the events they make. -/
theorem test_recognition_sequence :
    let a : ToneSignal := .forward .ft1
    let b : ToneSignal := .forward .ft2
    let ds := [none, some a, some a, some a, none, some a, none, some b, some b, some b]
    (ds.foldl (fun x d => let y := x.1.decide d; (y.1, x.2 ++ [y.2])) (({} : Recognition), [])).2 =
      [none, none, some (.recognised a), none, none, none, none, some (.ceased a), none, some (.recognised b)] := by
  decide +kernel

/-- The first samples of FT1 (R117). -/
theorem test_first_samples_of_ft1 :
    [0, 1, 2].map (fun n => (Generation.mk (.forward .ft1) 1600 n).code) = [0x00, 0x66, 0x64] := by decide +kernel

/-- Worked Measurement. -/
theorem test_measurement_figures :
    measurementFigures 393600000 [19200000000, 12288000000, 45000000, 0, 0, 0, 0, 0, 0, 0] 3 =
      some { rms := 905, strongest := 0, estimate := 1000 } := by decide +kernel

/-! ### Interlocked tone signalling (07) -/

/-- T0 as a sender of U2, answered by a backward signal that has ceased at its next block. -/
def sender (c : ToneSender) (send : SendStore) : State :=
  let s := lab { trunkIn .outgoing .outSelecting with
    tone := some (.sender c), unit := some ⟨2, .sender⟩, send := send
    record := some { openCall .outgoing with category := some .ordinary } } toneProfile
  s.mapUnit 2 fun u => { u with
    status := .signalling 0 .sender, ended := some ⟨Vector.replicate 10 {}, 0⟩
    recognition := { recognised := some (.backward .bt1), previous := .cleared, count := 1 } }

/-- Sample Sender Sequence, step 3: BT3 ceased after digit 3: the digit is acknowledged and the category sent. -/
theorem test_sender_answers_a_category_request :
    let u := after (.toneBlockEvent 2)
      (sender ⟨.answered, some (.digit 1), some 1, some .bt3, some ⟨.interlock, 9⟩⟩ { digits := [3, 0] })
    (u.trunk 0).send.pos = 2 ∧ ((u.trunk 0).record.map (·.digits)) = some [3] ∧
      ((u.unit 2).generation.map (·.sig)) = some (.forward .ft12) := by decide +kernel

/-- Step 9: the last digit answered with the end flag clear: WAITING under the sender digit wait. -/
theorem test_sender_waits_for_digits :
    let u := after (.toneBlockEvent 2)
      (sender ⟨.answered, some (.digit 2), some 2, some .bt1, some ⟨.interlock, 9⟩⟩ { digits := [3, 0], pos := 2 })
    (u.trunk 0).send.pos = 3 ∧ (u.unit 2).generation = none ∧
      (u.trunk 0).tone = some (.sender ⟨.waiting, some (.digit 2), some 2, none, some ⟨.senderWait, 10000⟩⟩) := by decide +kernel

/-! ### Number analysis (08, Worked Analysis) -/

/-- An entry of the worked table. -/
def entry (mask : BitVec 8) (pattern : List (Option Digit)) (o : AnalysisOutcome) (len : Nat) : AnalysisEntry :=
  { valid := true, groups := mask, patternLength := pattern.length
    pattern := Vector.ofFn fun k : Fin 6 => pattern.getD k.val none, outcome := o, length := len }

/-- The worked table. -/
def workedTable : List AnalysisEntry :=
  [entry 2 [some 0, none] .fixed 10, entry 2 [some 0, some 0] .refuse 1, entry 6 [some 1, some 2, some 3] .fixed 3,
   entry 4 [some 1] .openNumber 1, entry 2 [some 9, some 9, some 9] .refuse 1]

theorem test_worked_analysis :
    ([[0], [0, 0], [1, 2], [1, 2, 3], [1, 5], [9, 9], [9, 9, 9]].map fun ds => (analyse workedTable 1 .refuse ds).1) =
        [.undecided, .undecided, .undecided, .complete, .refused, .undecided, .refused] ∧
      ([[1], [1, 2], [1, 2, 3]].map fun ds => (analyse workedTable 2 .openNumber ds).1) =
        [.openNumber, .openNumber, .complete] := by decide +kernel

/-! ### The link (10, Sample Link Exchange) -/

/-- Unit 5 with its trunk in IN-WAIT-ANSWER at T3. -/
def unitFive : State :=
  let s := lab {}
  { s with
    trunks := s.trunks.set 3 { trunkIn .incoming .inWaitAnswer with record := some (openCall .incoming) }
    clk := { s.clk with address := 5 } }

/-- Step 2: ANSWER T3 taken. -/
theorem test_answer_frame :
    let u := after (.commandFrame ⟨.own, false, [2, 0x13, 3, 0xE8]⟩) unitFive
    (u.trunk 3).state = .inAnswered ∧ (u.trunk 3).sentCode = 5 ∧ replyData u = some [0x85, 2, 0x93, 0, 0x6B] := by
  decide +kernel

/-- Step 3: the BLOCK frame that ends while the reply is sent is discarded with the overrun flag. -/
theorem test_overrun_discards :
    let s := { unitFive with clk := { unitFive.clk with reply := some [charBits 0x85 true] } }
    let u := after (.commandFrame ⟨.own, false, [2, 0x16, 3, 0xE5]⟩) s
    u.clk.overrun = true ∧ (u.trunk 3).localBlock = false := by decide +kernel

/-- Step 5: BLOCK T3 with the overrun flag set. -/
theorem test_block_with_overrun :
    let s := { unitFive with clk := { unitFive.clk with overrun := true } }
    let u := after (.block [3]) s
    (u.trunk 3).localBlock = true ∧ (u.trunk 3).state = .inWaitAnswer ∧ u.clk.overrun = false ∧
      replyData u = some [0x85, 2, 0x96, 0x80, 0xE8] := by decide +kernel

/-- Step 4: the reply ends and the command is no longer held. -/
theorem test_reply_ends :
    let s := { unitFive with clk := { unitFive.clk with reply := some [charBits 0x85 true], overrun := true } }
    (after .replyComplete s).clk.reply = none ∧ (after .replyComplete s).clk.overrun = true := by decide +kernel

/-- Step 8: a bad check is answered BAD-FRAME before the trunk number is looked at. -/
theorem test_bad_check :
    ((replied (.commandFrame ⟨.own, false, [2, 0x19, 40, 0]⟩) unitFive).map (·.take 4)) =
      some [0x85, 2, 0x99, 2] := by decide +kernel

/-- R178, R182: the header of unit 5, sampled on CMD, opens a collection of its own frame (step 1). -/
theorem test_header_character :
    (after (.characterReceived ({ data := 5, marker := true, framingError := false } : Character).samples) unitFive).clk.collection =
      .own := by decide +kernel

/-- R178, R186: the header of a reply is sent with marker 1 and the next character with marker 0; a character is its
start bit 0, eight bits least significant first, the marker and its stop bit 1. -/
theorem test_reply_characters :
    (after (.commandFrame ⟨.own, false, [2, 0x13, 3, 0xE8]⟩) unitFive).clk.reply.map (·.take 2) =
      some [0b11100001010#11, 0b10000000100#11] := by decide +kernel

/-- R180: a level of 0 that lasts eight samples is a disturbance on an idle line, and nothing is received. -/
theorem test_disturbed_start_bit :
    (after (.characterReceived (List.replicate 6 false ++ List.replicate 3 true)) unitFive).clk = unitFive.clk := by
  decide +kernel

/-- R180: after a framing error the search waits for the line to rise: a line at 0 all along gives one character. -/
theorem test_line_at_zero_gives_one_character :
    let s := { unitFive with clk := { unitFive.clk with collection := .own } }
    let u := after (.characterReceived (List.replicate 600 false)) s
    u.clk.collection = .idle ∧ u.clk.receiver = { search := .searching, level := false } ∧
      replyData u = some [0x85, 2, 0x80, 2, 0x7C] := by decide +kernel

/-- R183: a frame that ends leaves the collection IDLE with its buffer empty. -/
theorem test_frame_ends_the_collection :
    let s := { unitFive with clk := { unitFive.clk with collection := .broadcast, buffer := [2, 0x34], errored := true } }
    let u := after (.commandFrame ⟨.own, false, [2, 0x13, 3, 0xE8]⟩) s
    u.clk.collection = .idle ∧ u.clk.buffer = [] ∧ u.clk.errored = false := by decide +kernel

/-! ### Host commands -/

/-- R43: SEIZE with two digits. -/
theorem test_seize :
    let u := after (.seize [0, 0x22, 0x60, 0, 0, 2, 4, 1, 0]) (lab (trunkIn .outgoing .idle))
    (u.trunk 0).state = .outSeizing ∧ (u.trunk 0).callRef = some 8800 ∧ (u.trunk 0).send.digits = [4, 1] ∧
      (u.trunk 0).timer = some ⟨.ack, 500⟩ ∧ (u.traffic.get 0).outAttempts = 1 ∧ (u.trunk 0).sentCode = 0 := by
  decide +kernel

/-- Worked Relay Sequence, step 5: the relay SEIZE (T6 is the inlet and T0 stands for T21). -/
theorem test_relay_seize :
    let s := lab (trunkIn .outgoing .idle) decadicProfile
    let s := { s with trunks := s.trunks.set 6 { trunkIn .incoming .inSelecting with received := { digits := [0, 9] } } }
    let u := after (.seize [0, 0x22, 0x60, 0, 0, 0, 1, 6, 2, 2, 4, 1]) s
    (u.trunk 0).send.digits = [4, 1] ∧ (u.trunk 0).link = some ⟨6, .outlet⟩ ∧
      (u.trunk 6).link = some ⟨0, .inlet⟩ ∧ (u.trunk 6).linkRecord = some ⟨2, 0, false⟩ := by decide +kernel

/-- Sample Sender Sequence, step 10: ADD-DIGITS wakes a waiting sender with FT9. -/
theorem test_add_digits_wakes_the_sender :
    let s := sender ⟨.waiting, none, some 2, none, some ⟨.senderWait, 9⟩⟩ { digits := [3, 0], pos := 3 }
    let u := after (.addDigits [0, 1, 1, 9]) s
    ((u.unit 2).generation.map (·.sig)) = some (.forward .ft9) ∧ (u.trunk 0).send.endFlag = true ∧
      (replyData u).map (·.take 4) = some [0x80, 2, 0x91, 0] := by decide +kernel

/-- R25: a line persistence of 1 is stored as 2, with OK-CLAMPED. -/
theorem test_profile_is_clamped :
    let bs : List Byte := ((({ linePersistence := 1 } : Profile)).bytes)
    let u := after (.setProfile (1 :: bs)) (lab {})
    (u.profiles.get 1).linePersistence = 2 ∧ ((replyData u).map fun r => r.getD 3 0) = some 1 := by decide +kernel

/-- R23: B-GUARD must differ from B-IDLE. -/
theorem test_profile_codes_are_judged :
    let bs : List Byte := ((({ codes := { bGuard := 1 } } : Profile)).bytes)
    ((replied (.setProfile (1 :: bs)) (lab {})).map fun r => r.getD 3 0) = some 5 := by decide +kernel

/-- R31: SET-TRUNK of an IDLE trunk, and BAD-STATE in a call. -/
theorem test_set_trunk :
    ((after (.setTrunk [0, 2, 1, 3, 1]) (lab {})).trunk 0).state = .idle ∧
      ((replied (.setTrunk [0, 2, 1, 3, 1]) (lab (trunkIn .incoming .inAnswered))).map fun r => r.getD 3 0) = some 6 := by
  decide +kernel

/-- R196: a threshold of 0 is stored as 1 and a hold limit of 0 as 1. -/
theorem test_set_reporting :
    replied (.setReporting [0, 7, 0]) State.reset = some [0x80, 5, 0x86, 1, 1, 7, 1, 0x6B] := by decide +kernel

/-- Sample Queue Sequence, step 5: POLL of a LINE-ANOMALY and a SEIZED-IN. -/
theorem test_poll :
    let s := lab {}
    let s := { s with rqa := { s.rqa with entries :=
      [⟨.lineAnomaly 4 .unexpectedCode, some 5, 1050, 1, 120⟩, ⟨.seizedIn (some 1), some 9, 1030, 0, 90⟩] } }
    ((replied (.poll []) s).map fun r => (r.length, (r.drop 3).take 4)) = some (28, [0, 0, 0, 2]) ∧
      (after (.poll []) s).rqa.entries = [] := by decide +kernel

/-- Sample Queue Sequence, step 3: a second anomaly of T5 is merged in place. -/
theorem test_condition_reports_merge :
    let s := lab {}
    let s := { s with tmb := { s.tmb with counter := 1050 }
                      rqa := { s.rqa with entries := [⟨.lineAnomaly 6 .unexpectedCode, some 5, 1000, 0, 50⟩] } }
    (s.submit (some 5) (.lineAnomaly 4 .unexpectedCode)).rqa.entries =
      [⟨.lineAnomaly 4 .unexpectedCode, some 5, 1050, 1, 50⟩] := by decide +kernel

/-- Sample Queue Sequence, step 4: ATTN goes low as the oldest entry reaches 100 ms. -/
theorem test_attention_by_age :
    let s := lab {}
    let s := { s with rqa := { s.rqa with entries := [⟨.seizedIn (some 1), some 9, 1030, 0, 99⟩] } }
    (after .millisecondEvent s).rqa.attn = true := by decide +kernel

/-- R188: IDENTIFY of a unit with address 5 and counter 0x01020304. -/
theorem test_identify :
    let s := { unitFive with tmb := { unitFive.tmb with counter := 0x01020304 } }
    ((replied (.identify []) s).map fun r => (r.drop 4).take 9) = some [1, 5, 0, 1, 2, 3, 4, 0, 1] := by decide +kernel

/-- R199: READ-FAULT of an empty record. -/
theorem test_read_fault :
    ((replied (.readFault []) State.reset).map fun r => (r.drop 4).take 8) = some [0, 0, 0xFF, 0, 0, 0, 0, 0] := by
  decide +kernel

/-- R6: a broadcast TIME-MARK loads the counter. -/
theorem test_time_mark :
    (after (.timeMark .broadcast [1, 2, 3, 4]) State.reset).tmb.counter = 0x01020304 := by decide +kernel

/-- R102: an idle pool: eight free units and two empty queues. -/
theorem test_query_pool :
    ((replied (.queryPool []) State.reset).map fun r => ((r.drop 4).take 4, r.length)) =
      some ([0, 0xFF, 0xFF, 0xFF], 39) := by decide +kernel

/-- R95: a MEASURE of T0 takes U0. -/
theorem test_measure :
    ((replied (.measure [0, 3]) (lab (trunkIn .incoming .idle))).map fun r => (r.drop 3).take 3) = some [0, 0, 0] := by
  decide +kernel

/-- R18: an idle trunk passes the switch's sample; R19: a free unit takes none. -/
theorem test_sample_passes :
    let u := after (.sampleEvent (Vector.replicate 32 0x55) (Vector.replicate 32 0x2A)) (lab (trunkIn .incoming .idle))
    (u.ltx.map fun v => v.get 0) = some 0x2A ∧ (u.unit 0).pos = 0 := by decide +kernel

/-- R152, R155: SET-ANALYSIS with a pattern length of 7 is refused with BAD-VALUE (R153). -/
theorem test_pattern_length_is_judged :
    ((replied (.setAnalysis [0, 1, 2, 7, 0, 10, 10, 10, 10, 10, 0, 10]) State.reset).map fun r => r.getD 3 0) =
      some 5 := by decide +kernel

/-! ### The unit's own expiries -/

/-- R45: the ack timer's expiry: FAILED with cause ACK-TIMEOUT. -/
theorem test_ack_timeout :
    let r := { trunkIn .outgoing .outSeizing with timer := some ⟨.ack, 0⟩, record := some (openCall .outgoing) }
    let u := after (.ackTimerExpiry 0) (lab r)
    (u.trunk 0).state = .failed ∧ (u.trunk 0).cause = some .ackTimeout ∧
      (u.rqa.entries.map fun e => e.body.kindCode) = [1, 0x0A, 0x0C] := by decide +kernel

/-- 09, Sample Call Record, step 8: the guard timer's expiry closes the record with cause NORMAL. -/
theorem test_guard_end :
    let r := { trunkIn .incoming .inGuard with timer := some ⟨.guard, 0⟩, record := some (openCall .incoming) }
    let u := after (.guardTimerExpiry 0) (lab r)
    (u.trunk 0).state = .idle ∧ (u.trunk 0).record = none ∧
      u.rqa.entries.map (·.body) = [.startup .power 1 0 true, .released ⟨openCall .incoming, 0, .normal⟩] := by
  decide +kernel

/-- R54: a RELEASE in OUT-SEIZING where the far end is still idle completes at once. -/
theorem test_release_of_idle_far_end :
    let r := { trunkIn .outgoing .outSeizing with
      lcr := { accepted := some 1 }, timer := some ⟨.ack, 90⟩, record := some (openCall .outgoing) }
    let u := after (.release [0]) (lab r)
    (u.trunk 0).state = .idle ∧
      u.rqa.entries.map (·.body) = [.startup .power 1 0 true, .released ⟨openCall .outgoing, 0, .normal⟩] := by
  decide +kernel

/-- R62: a far seizure that still stands when the guard ends is taken as a new call, after the RELEASED report (R41). -/
theorem test_guard_end_takes_standing_seizure :
    let r := { trunkIn .incoming .inGuard with
      lcr := { accepted := some 0 }, timer := some ⟨.guard, 0⟩, record := some (openCall .incoming) }
    let u := after (.guardTimerExpiry 0) (lab r decadicProfile)
    (u.trunk 0).state = .inSelecting ∧ u.rqa.entries.map (·.body) = [.startup .power 1 0 true,
      .released ⟨openCall .incoming, 0, .normal⟩, .seizedIn (some 1)] := by decide +kernel

/-- Worked Relay Sequence, step 14: T0 (for T21) completes; the link carries COMPLETE to the inlet T6. -/
theorem test_relay_completion :
    let r := { trunkIn .outgoing .outSelecting with
      decadic := some (.sending ⟨.pause, 0, false, some 0⟩), link := some ⟨6, .outlet⟩
      send := { digits := [4, 1, 5], endFlag := true, pos := 4 } }
    let s := lab r decadicProfile
    let s := { s with
      trunks := s.trunks.set 6 { trunkIn .incoming .inSelecting with
        link := some ⟨0, .inlet⟩, linkRecord := some ⟨2, 1, true⟩, received := { digits := [0, 9, 5], endReceived := true }
        unit := some ⟨0, .receiver⟩
        tone := some (.receiver ⟨.held, none, false, true, false, none⟩) }
      units := s.units.set 0 { status := .signalling 6 .receiver } }
    let u := after (.pauseTimerExpiry 0) s
    (u.trunk 0).state = .outWaitAnswer ∧ (u.trunk 6).state = .inWaitAnswer ∧
      ((u.unit 0).generation.map (·.sig)) = some (.backward .bt4) ∧
      u.rqa.entries.map (·.body) = [.startup .power 1 0 true, .registerEnd (some 7) .complete none,
        .linkEnd 0 .outlet (some .complete) 1, .digitsComplete (some 7) none [0, 9, 5]] := by decide +kernel


/-! ### Witnesses: states and operands that meet the hypotheses of the statements, clause by clause

Each theorem is named after its statement and gives the hypotheses as they stand there, at the boundary values of each
clause. -/

theorem lab_unit (r : Trunk) (p : Profile) (a : Machine.Alignment) (v : UnitNo) : (lab r p a).unit v = {} := by
  simp [lab, State.unit, State.reset, State.afterHardReset, State.afterReset]

/-- No tone unit of the test unit measures. -/
theorem lab_measures_nothing (r : Trunk) (p : Profile) (a : Machine.Alignment) :
    ∀ v k d e, ((lab r p a).unit v).status ≠ .measuring k d e := by
  intro v k d e; simp [lab_unit]

/-- The test unit in HOLD, since counter value 0, with the hold limit timer running. -/
def holding (r : Trunk) (p : Profile := {}) (correct : Nat := 0) (left : Nat := 2000) : State :=
  { lab r p .hold with
    hwi := { alignment := .hold, correct := correct, holdStart := some 0, holdTimer := some ⟨2000 - left, left⟩ } }

/-- A trunk with an open record. -/
def called (role : Role) (st : TrunkState) (d : Direction) : Trunk :=
  { trunkIn role st with record := some (openCall d) }

theorem witness_ResetCommandGivesTheResetValues : ([0] : List Byte) ≠ [] := by decide

theorem witness_TimeMarkLoadsTheCounter :
    (∀ x ∈ [Dest.own, .broadcast],
      (after .millisecondEvent (after (.timeMark x [1, 2, 3, 4]) State.reset)).tmb.counter = 0x01020305) ∧
      ([1, 2, 3] : List Byte).length ≠ 4 ∧ ([1, 2, 3, 4, 5] : List Byte).length ≠ 4 := by decide +kernel

theorem witness_FrameSyncEdgeAndLossOutsideAligned :
    ((lab {} {} .searching).tmb.fsPresent = true ∧ (lab {} {} .searching).hwi.alignment = .searching) ∧
      (holding {}).tmb.fsPresent = true ∧ (holding {}).hwi.alignment = .hold := by decide

theorem witness_MillisecondEventCountsEveryTimer :
    (holding {}).hwi.alignment = .hold ∧
    (∀ x ∈ [DecadicContext.sending ⟨.pause, 0, false, some 700⟩,
        .receiving ⟨.counting, .made, 3, 1, some ⟨.firstDigit, 0⟩, some 200, some 250, false⟩,
        .watching ⟨.broken, some 1⟩],
      let s := lab { trunkIn .incoming .inSelecting with decadic := some x }
      s.hwi.alignment ≠ .hold ∧ (s.trunk 0).decadic = some x) ∧
    ∀ x ∈ [ToneContext.sender ⟨.waiting, none, none, none, some ⟨.senderWait, 1⟩⟩,
        .receiver ⟨.listening, none, false, false, false, some ⟨.interDigit, 1⟩⟩],
      let s := lab { trunkIn .incoming .inSelecting with tone := some x }
      s.hwi.alignment ≠ .hold ∧ (s.trunk 0).tone = some x := by decide +kernel

/-- The trunk of the next witness: a decadic sender in its break. -/
def breaking : Trunk := { trunkIn .outgoing .outSelecting with decadic := some (.sending ⟨.breaking, 3, false, some 60⟩) }

theorem witness_HoldStartsOnFsLossOrTheFourthWrongWord :
    (∀ f ∈ [none, some ⟨.trunkFailed, some 4, 9⟩],
      let s := lab breaking
      let s := { s with fault := { held := f }, hwi := { s.hwi with wrong := 3 } }
      s.hwi.alignment = .aligned ∧ s.tmb.fsPresent = true ∧ s.fault.held = f ∧ s.hwi.wrong = 3 ∧
        frameWord 0 ≠ 0b01110010#8 ∧ (s.trunk 0).decadic = some (.sending ⟨.breaking, 3, false, some 60⟩) ∧
        (s.trunk 1).decadic = none ∧
        (after .fsLoss s).rqa.sequenceLoss = false ∧ (after (.receivedFrameEvent 0) s).rqa.sequenceLoss = false) ∧
      (∀ v k a d, ((lab breaking).unit v).status ≠ .measuring k a d) ∧
      let s := (lab breaking).mapUnit 0 fun u => { u with status := .measuring 3 2 1 }
      s.hwi.alignment = .aligned ∧ s.tmb.fsPresent = true ∧ s.callQueue = [] ∧ (s.unit 0).status = .measuring 3 2 1 :=
  ⟨by decide +kernel, lab_measures_nothing _ _ _, by decide +kernel⟩

theorem witness_HuntNeedsThreeCorrectWords :
    frameWord 0 ≠ 0b01110010#8 ∧ frameWord (frameOfCode 1) = 0b01110010#8 ∧
      ∀ x ∈ [(false, 0), (true, 1), (true, 2)],
        let s := lab {} {} .searching
        let s := { s with hwi := { s.hwi with trial := x.1, correct := x.2 } }
        s.hwi.alignment = .searching ∧ s.tmb.fsPresent = true ∧ s.hwi.trial = x.1 ∧ s.hwi.correct = x.2 := by decide +kernel

theorem witness_ReceivedFrameIsTakenOrSkipped :
    frameWord (frameOfCode 1) = 0b01110010#8 ∧ frameWord 0 ≠ 0b01110010#8 ∧
      ∀ n ∈ [0, 2], let s := lab {}
        let s := { s with hwi := { s.hwi with wrong := n } }
        s.hwi.alignment = .aligned ∧ s.tmb.fsPresent = true ∧ s.hwi.wrong < 3 := by decide +kernel

theorem witness_LineCodeFilterAcceptsAtItsPersistence :
    (∀ x ∈ [(FilterMode.line, 10), (.pulse, 3)],
      let s := lab { trunkIn .incoming .localBlocked with lcr := { accepted := some 1, mode := x.1 } }
      (s.trunk 0).role ≠ .unequipped ∧ (s.trunk 0).lcr.accepted ≠ some 0 ∧ (s.trunk 0).lcr.candidate = none ∧
        x.2 = (if (s.trunk 0).lcr.mode = .line then (s.profiles.get (s.trunk 0).profile).linePersistence
          else (s.profiles.get (s.trunk 0).profile).pulsePersistence) ∧
        (0 < 1 ∧ 1 < x.2) ∧ (0 < x.2 - 1 ∧ x.2 - 1 < x.2) ∧ (s.trunk 0).lcr.accepted = some 1) ∧
      ((lab {}).trunk 0).role = .unequipped := by decide +kernel

theorem witness_TransmitFramesAndDurationTicks :
    ({ State.reset with tmb := { frameDue := true } } : State).tmb.frameDue = true ∧
      let s : State := { State.reset with
        tmb := { tickDue := true }, traffic := Vector.replicate 8 { occupancy := 4294967295 } }
      s.tmb.tickDue = true ∧ ∀ g, (s.traffic.get g).occupancy ≤ 4294967295 := by decide +kernel

theorem witness_ThirdCorrectWordEndsTheHold :
    frameWord 0 ≠ 0b01110010#8 ∧ frameWord (frameOfCode 1) = 0b01110010#8 ∧
      (∀ n ∈ [0, 1], (holding {} {} n).hwi.alignment = .hold ∧ (holding {} {} n).tmb.fsPresent = true ∧
        (holding {} {} n).hwi.correct < 2) ∧
      (∀ q ∈ [([] : List CallWait), [⟨4, .sender, 9⟩]],
        let s := { holding (trunkIn .incoming .idle) {} 2 with callQueue := q, testQueue := [⟨0, 1, 9⟩] }
        s.callQueue = q ∧ s.testQueue[0]? = some ⟨0, 1, 9⟩ ∧ s.testQueue[1]? = none ∧
          (List.finRange 8).filter (fun v => (s.unit v).status == .free) = List.finRange 8) ∧
      ∀ x ∈ [DecadicContext.sending ⟨.breaking, 3, true, some 60⟩, .sending ⟨.waiting, 0, false, none⟩,
          .sending ⟨.waiting, 0, false, some 9⟩, .receiving ⟨.counting, .made, 3, 1, none, some 200, none, false⟩,
          .receiving ⟨.rejecting, .made, 3, 0, none, some 200, none, false⟩, .watching ⟨.made, none⟩],
        let s := holding { trunkIn .outgoing .outSelecting with lcr := { accepted := some 1 }, decadic := some x } {} 2
        s.hwi.alignment = .hold ∧ s.tmb.fsPresent = true ∧ s.hwi.correct = 2 ∧ s.hwi.holdStart = some 0 ∧
          (∀ t, (s.trunk t).role = .unequipped ∨ (s.trunk t).lcr.accepted = some (frameCode (frameOfCode 1) t)) ∧
          (s.trunk 0).decadic = some x := by decide +kernel

theorem witness_HoldLimitFailsEveryTrunkInCall :
    ∀ f ∈ [none, some ⟨.trunkFailed, some 4, 9⟩],
      let s := { holding (called .outgoing .outSeizing .outgoing) {} 0 0 with fault := { held := f } }
      s.hwi.alignment = .hold ∧ s.hwi.holdTimer = some ⟨2000, 0⟩ ∧ s.fault.held = f ∧
        (s.trunk 0).state.inCall = true ∧ (s.trunk 0).record = some (openCall .outgoing) ∧
        (s.trunk 1).state.inCall = false := by decide +kernel

/-- TONE trunks that ask for a unit, each with the clause of `State.asksForUnit` that it meets: U0 measures the line; all
units are free and a test of the line waits; no unit is free. -/
def callers (r : Trunk) : List (State × (State → Prop)) :=
  [((lab r toneProfile).mapUnit 0 fun u => { u with status := .measuring 0 2 1 },
      fun s => (s.unit 0).status = .measuring 0 2 1 ∧ ∀ w < (0 : UnitNo), ∀ a d, (s.unit w).status ≠ .measuring 0 a d),
    ({ lab r toneProfile with testQueue := [⟨0, 1, 9⟩] },
      fun s => (∃ e ∈ s.testQueue, e.trunk = 0) ∧ (s.unit 0).status = .free ∧
        (∀ w < (0 : UnitNo), (s.unit w).status ≠ .free) ∧ ∀ v a d, (s.unit v).status ≠ .measuring 0 a d),
    ({ lab r toneProfile with units := Vector.replicate 8 { status := .signalling 1 .receiver } },
      fun s => (∀ v, (s.unit v).status ≠ .free) ∧ ∀ v a d, (s.unit v).status ≠ .measuring 0 a d)]

theorem callers_ask (r : Trunk) : ∀ x ∈ callers r, x.2 x.1 := by
  have none_below : ∀ w : UnitNo, ¬ w < 0 := by decide
  simp only [callers, List.mem_cons, List.not_mem_nil, or_false]
  rintro x (rfl | rfl | rfl)
  · exact ⟨rfl, fun w h => absurd h (none_below w)⟩
  · exact ⟨⟨_, List.mem_singleton_self _, rfl⟩, by simp [State.unit, lab, State.reset, State.afterHardReset, State.afterReset],
      fun w h => absurd h (none_below w), fun v a d => by
        simp [State.unit, lab, State.reset, State.afterHardReset, State.afterReset]⟩
  · exact ⟨fun v => by simp [State.unit], fun v a d => by simp [State.unit]⟩

theorem witness_FarSeizureOpensAnIncomingCall :
    (∀ p ∈ [({} : Profile), decadicProfile, toneProfile], ∀ role ∈ [Role.incoming, .bothWay],
      let s := lab { trunkIn role .idle with lcr := { accepted := some 0 } } p
      p = s.profiles.get (s.trunk 0).profile ∧ (s.trunk 0).state = .idle ∧
        ((s.trunk 0).role = .incoming ∨ (s.trunk 0).role = .bothWay) ∧
        (s.trunk 0).lcr.accepted = some p.codes.fSeize) ∧
      ∀ x ∈ callers { trunkIn .incoming .idle with lcr := { accepted := some 0 } }, x.2 x.1 :=
  ⟨by decide +kernel, callers_ask _⟩

theorem witness_AcknowledgementStartsTheRegisterPhase :
    (∀ p ∈ [({} : Profile), { answerWait := 1 }, decadicProfile, toneProfile],
      let s := lab { called .outgoing .outSeizing .outgoing with lcr := { accepted := some 3 } } p
      p = s.profiles.get (s.trunk 0).profile ∧ (s.trunk 0).state = .outSeizing ∧
        (s.trunk 0).lcr.accepted = some p.codes.bAck) ∧
      ∀ x ∈ callers { called .outgoing .outSeizing .outgoing with lcr := { accepted := some 3 } }, x.2 x.1 :=
  ⟨by decide +kernel, callers_ask _⟩

theorem witness_ClearForwardPutsTheTrunkIntoGuard :
    (∀ st ∈ [TrunkState.inSelecting, .inWaitAnswer, .inAnswered, .inClearback, .inRejected],
      let s := lab { called .incoming st .incoming with lcr := { accepted := some 1 } } toneProfile
      toneProfile = s.profiles.get (s.trunk 0).profile ∧ (s.trunk 0).link = none ∧ (∀ e ∈ s.callQueue, e.trunk ≠ 0) ∧
        (s.trunk 0).state = st ∧ toneProfile.method ≠ .decadic ∧
        (s.trunk 0).lcr.accepted = some toneProfile.codes.fClear ∧
        toneProfile.codes.fSeize ≠ toneProfile.codes.fClear) ∧
      ∀ x ∈ [DecadicContext.receiving ⟨.counting, .broken, 250, 1, none, none, some 0, false⟩,
          .watching ⟨.broken, some 0⟩],
        let s := lab { called .incoming .inSelecting .incoming with decadic := some x } decadicProfile
        (s.trunk 0).link = none ∧ (∀ e ∈ s.callQueue, e.trunk ≠ 0) ∧ s.hwi.alignment ≠ .hold ∧
          (s.trunk 0).clearRecognition = some 0 := by decide +kernel

theorem witness_AckAndReleaseTimerExpiriesFailTheTrunk :
    (∀ x ∈ [(TrunkState.outSeizing, SupervisionKind.ack), (.outClearing, .release)], ∀ n ∈ [0, 62, 63, 64], ∀ held : Bool,
      let e : ReportEntry := { body := .remoteBlock, trunk := none, stamp := 0 }
      let s : State := { lab { called .outgoing x.1 .outgoing with timer := some ⟨x.2, 0⟩ } with
        rqa := { State.reset.rqa with entries := List.replicate n e }
        fault := { held := if held then some ⟨.holdStart, none, 0⟩ else none } }
      s.hwi.alignment ≠ .hold ∧ (s.trunk 0).state = x.1 ∧ (s.trunk 0).timer = some { kind := x.2, left := 0 } ∧
        (s.trunk 0).link = none ∧ (∀ e ∈ s.callQueue, e.trunk ≠ 0) ∧ (s.trunk 0).record = some (openCall .outgoing) ∧
        s.rqa.entries.length = n ∧ s.fault.held.isSome = held) ∧
      ((62 : Nat) + 2 ≤ 64 ∧ (64 : Nat) < 63 + 2) := by decide +kernel

/-- T6 as a decadic inlet linked to T0 in OUT-SEIZING, with one digit stored and none relayed. -/
def linked (c : DecadicReceiver) (delete : Nat) : State :=
  let s := lab { called .outgoing .outSeizing .outgoing with link := some ⟨6, .outlet⟩ } decadicProfile
  { s with trunks := s.trunks.set 6 { called .incoming .inSelecting .incoming with
      link := some ⟨0, .inlet⟩, linkRecord := some ⟨delete, 0, false⟩, decadic := some (.receiving c)
      received := { digits := [7] } } }

/-- T6 as a tone inlet holding U1, linked to T0. -/
def toneLinked (c : ToneReceiver) (outlet : Trunk) : State :=
  let s := lab outlet toneProfile
  { s with trunks := s.trunks.set 6 { called .incoming .inSelecting .incoming with
      link := some ⟨0, .inlet⟩, linkRecord := some ⟨2, 1, false⟩, tone := some (.receiver c)
      unit := some ⟨1, .receiver⟩, received := { digits := [7] } } }

theorem witness_RelayLinkRelaysDigitsAndDissolves :
    (∀ c ∈ [(⟨.counting, .made, 200, 10, none, some 0, none, false⟩ : DecadicReceiver),
        ⟨.between, .made, 200, 0, some ⟨.firstDigit, 0⟩, none, none, false⟩], ∀ delete ∈ [1, 2],
      let s := linked c delete
      let p := decadicProfile
      (6 : TrunkNo) ≠ 0 ∧ p = s.profiles.get (s.trunk 6).profile ∧ p = s.profiles.get (s.trunk 0).profile ∧
        s.hwi.alignment ≠ .hold ∧ (∀ e ∈ s.callQueue, e.trunk ≠ 6 ∧ e.trunk ≠ 0) ∧
        (s.trunk 6).link = some { peer := 0, part := .inlet } ∧ (s.trunk 6).linkRecord = some ⟨delete, 0, false⟩ ∧
        (s.trunk 6).state = .inSelecting ∧ (s.trunk 6).decadic = some (.receiving c) ∧ (s.trunk 6).tone = none ∧
        (s.trunk 0).link = some { peer := 6, part := .outlet } ∧ (s.trunk 0).role ≠ .unequipped ∧
        (s.trunk 0).state = .outSeizing ∧ (s.trunk 0).decadic = none ∧ (s.trunk 0).tone = none ∧
        (s.trunk 0).unit = none ∧ (s.trunk 0).lcr.accepted = none ∧ p.mode = .host ∧
        (s.trunk 6).received.digits.length < 24 ∧ (s.trunk 0).send.digits.length < 24 ∧
        (c.phase = .counting → c.digitEnd = some 0 ∧ c.pulses = (if (0 : Digit).val = 0 then 10 else 0))) ∧
      (∀ ph ∈ [ToneReceivePhase.listening, .responding, .pulsing, .held, .final],
        let c : ToneReceiver := ⟨ph, none, false, false, false, none⟩
        let s := toneLinked c { called .outgoing .outSeizing .outgoing with link := some ⟨6, .outlet⟩ }
        (∀ e ∈ s.callQueue, e.trunk ≠ 6 ∧ e.trunk ≠ 0) ∧ (s.trunk 6).link = some { peer := 0, part := .inlet } ∧
          (s.trunk 6).linkRecord = some ⟨2, 1, false⟩ ∧ (s.trunk 6).state = .inSelecting ∧ (s.trunk 6).role ≠ .unequipped ∧
          (s.trunk 6).tone = some (.receiver c) ∧ (s.trunk 6).unit = some ⟨1, .receiver⟩ ∧
          (s.trunk 0).link = some { peer := 6, part := .outlet } ∧ (s.trunk 0).role ≠ .unequipped ∧
          (s.trunk 0).state = .outSeizing ∧ (s.trunk 0).unit = none ∧ (s.trunk 0).lcr.accepted = none) ∧
      ∀ b ∈ [BackwardSignal.bt4, .bt5, .bt6],
        let k : ToneSender := ⟨.answered, some (.digit 1), some 1, some b, some ⟨.interlock, 9⟩⟩
        let s := toneLinked ⟨.listening, none, false, false, false, none⟩ { called .outgoing .outSelecting .outgoing with
          link := some ⟨6, .outlet⟩, tone := some (.sender k), unit := some ⟨2, .sender⟩ }
        (∀ e ∈ s.callQueue, e.trunk ≠ 6 ∧ e.trunk ≠ 0) ∧ (s.trunk 0).state = .outSelecting ∧
          (s.trunk 0).tone = some (.sender k) ∧ k.phase = .answered ∧ k.noted = some b := by
  refine ⟨?_, ?_, ?_⟩ <;> decide +kernel

/-- T6 as the inlet of a relay link to T0, with one place deleted and one digit stored. -/
def pair (inlet outlet : Trunk) (p : Profile) : State :=
  let s := lab { outlet with link := some ⟨6, .outlet⟩ } p
  { s with trunks := s.trunks.set 6 { inlet with link := some ⟨0, .inlet⟩, linkRecord := some ⟨1, 0, false⟩ } }

/-- T6 and T0 linked, with the inlet in IN-SELECTING: what the clauses about a linked pair share. -/
abbrev pairHolds (s : State) (p : Profile) : Prop :=
  (6 : TrunkNo) ≠ 0 ∧ p = s.profiles.get (s.trunk 6).profile ∧ p = s.profiles.get (s.trunk 0).profile ∧
    (s.trunk 6).link = some { peer := 0, part := .inlet } ∧ (s.trunk 6).linkRecord = some ⟨1, 0, false⟩ ∧
    (s.trunk 0).link = some { peer := 6, part := .outlet } ∧ (s.trunk 6).state = .inSelecting ∧
    (∀ e ∈ s.callQueue, e.trunk ≠ 0) ∧ s.hwi.alignment ≠ .hold ∧ (s.trunk 6).role ≠ .unequipped ∧
    (s.trunk 0).role ≠ .unequipped

/-- A decadic and a tone inlet; an inlet with a tone context holds a unit. -/
theorem witness_RelayLinkRelaysDigitsAndDissolves_outlet :
    ∀ inlet ∈ [called .incoming .inSelecting .incoming,
        { called .incoming .inSelecting .incoming with
          tone := some (.receiver ⟨.listening, none, false, false, false, none⟩), unit := some ⟨1, .receiver⟩ }],
      (∀ k ∈ [(⟨.pause, 0, false, some 0⟩ : DecadicSender), ⟨.waiting, 0, false, some 0⟩],
        let s := pair inlet { called .outgoing .outSelecting .outgoing with
          decadic := some (.sending k), send := { endFlag := true } } decadicProfile
        pairHolds s decadicProfile ∧ ((s.trunk 6).tone = none ∨ (s.trunk 6).unit.isSome = true) ∧
          (s.trunk 0).state = .outSelecting ∧ (s.trunk 0).decadic = some (.sending k) ∧ k.timer = some 0 ∧
          (s.trunk 0).send.digits[(s.trunk 0).send.pos - 1]? = none ∧ (s.trunk 0).send.endFlag = true) ∧
      ∀ x ∈ [(TrunkState.outSelecting, (5 : LineCode)), (.outSelecting, 2), (.outSeizing, 0), (.outSeizing, 7)],
        let s := pair inlet { called .bothWay x.1 .outgoing with
          lcr := { accepted := some x.2 }, timer := some ⟨.ack, 0⟩ } toneProfile
        pairHolds s toneProfile ∧ (s.trunk 0).state = x.1 ∧ (s.trunk 0).lcr.accepted = some x.2 ∧
          (s.trunk 0).role = .bothWay ∧ (s.trunk 0).glare = .yield ∧
          (s.trunk 0).timer = some { kind := .ack, left := 0 } ∧ (s.trunk 0).unit = none ∧
          toneProfile.codes.bAnswer = 5 ∧ toneProfile.codes.bClearback = 2 ∧ toneProfile.codes.bAck = 3 ∧
          toneProfile.codes.fSeize = 0 := by decide +kernel

theorem witness_RelayLinkRelaysDigitsAndDissolves_inlet :
    (let s := pair { called .incoming .inSelecting .incoming with lcr := { accepted := some 1 } }
        (called .outgoing .outSelecting .outgoing) toneProfile;
      pairHolds s toneProfile ∧ (s.trunk 6).unit = none ∧ toneProfile.method ≠ .decadic ∧
        (s.trunk 6).lcr.accepted = some toneProfile.codes.fClear ∧ toneProfile.codes.fSeize ≠ toneProfile.codes.fClear) ∧
      (let s := pair { called .incoming .inSelecting .incoming with decadic := some (.watching ⟨.broken, some 0⟩) }
        (called .outgoing .outSeizing .outgoing) decadicProfile;
      pairHolds s decadicProfile ∧ (s.trunk 6).unit = none ∧ (s.trunk 6).clearRecognition = some 0) ∧
      let c : DecadicReceiver := ⟨.between, .made, 200, 0, some ⟨.firstDigit, 0⟩, none, none, false⟩
      let s := pair { called .incoming .inSelecting .incoming with decadic := some (.receiving c) }
        { called .outgoing .outSelecting .outgoing with lcr := { accepted := some 3 } } decadicProfile
      pairHolds s decadicProfile ∧ (s.trunk 6).unit = none ∧ (s.trunk 6).decadic = some (.receiving c) ∧
        c.phase = .between ∧ c.wait = some { kind := .firstDigit, left := 0 } ∧ (s.trunk 6).tone = none ∧
        (⟨1, 0, false⟩ : LinkRecord).inletComplete = false := by
  refine ⟨?_, ?_, ?_⟩ <;> decide +kernel

/-- A full send store at the outlet, and an outlet that waits, decadic or tone. -/
theorem witness_RelayLinkRelaysDigitsAndDissolves_digit :
    (∀ outlet ∈ [{ called .outgoing .outSelecting .outgoing with send := { digits := List.replicate 24 3 } },
        { called .outgoing .outSelecting .outgoing with decadic := some (.sending ⟨.waiting, 0, false, none⟩) },
        { called .outgoing .outSelecting .outgoing with
          tone := some (.sender ⟨.waiting, none, none, none, none⟩), unit := some ⟨2, .sender⟩ }],
      let c : DecadicReceiver := ⟨.counting, .made, 200, 10, none, some 0, none, false⟩
      let s := pair { called .incoming .inSelecting .incoming with
        decadic := some (.receiving c), received := { digits := [7] } } outlet decadicProfile
      pairHolds s decadicProfile ∧ (s.trunk 6).received.digits.length < 24 ∧ 1 ≤ (s.trunk 6).received.digits.length ∧
        (s.trunk 6).decadic = some (.receiving c) ∧ c.phase = .counting ∧ c.digitEnd = some 0 ∧ c.pulses = 10 ∧
        decadicProfile.mode = .host ∧ (s.trunk 0).send = outlet.send ∧ (s.trunk 0).decadic = outlet.decadic ∧
        (s.trunk 0).tone = outlet.tone ∧ (s.trunk 0).unit = outlet.unit ∧
        (outlet.send.digits.length = 24 ∨ outlet.send.pos = outlet.send.digits.length + 1)) ∧
      let c : ToneReceiver := ⟨.listening, none, false, false, false, none⟩
      let s := pair { called .incoming .inSelecting .incoming with
        tone := some (.receiver c), unit := some ⟨1, .receiver⟩, received := { digits := [7] } }
        { called .outgoing .outSelecting .outgoing with send := { digits := List.replicate 24 3 } } toneProfile
      pairHolds s toneProfile ∧ (s.trunk 6).received.digits.length < 24 ∧ 1 ≤ (s.trunk 6).received.digits.length ∧
        (s.trunk 6).tone = some (.receiver c) ∧ (s.trunk 6).unit = some ⟨1, .receiver⟩ ∧
        ForwardSignal.ft3.meaning = .digit 3 ∧ 24 ≤ (s.trunk 0).send.digits.length := by
  refine ⟨?_, ?_⟩ <;> decide +kernel

theorem witness_AnswersAndClearBacksOfAnOutgoingCall :
    ∀ p ∈ [({} : Profile), { clearBackTimer := 0 }], p.codes.bClearback ≠ p.codes.bAck ∧
      ∀ x ∈ [(TrunkState.outWaitAnswer, (5 : LineCode)), (.outAnswered, 2), (.outClearback, 5), (.outSelecting, 5),
          (.outSelecting, 2), (.outWaitAnswer, 2)],
        let s := lab { called .outgoing x.1 .outgoing with lcr := { accepted := some x.2 } } p
        p = s.profiles.get (s.trunk 0).profile ∧ p.codes.valid = true ∧ (s.trunk 0).state = x.1 ∧
          (s.trunk 0).link = none ∧ (∀ e ∈ s.callQueue, e.trunk ≠ 0) ∧
          (s.trunk 0).lcr.accepted = some (if x.2 = 2 then p.codes.bClearback else p.codes.bAnswer) := by
  decide +kernel

theorem witness_DualSeizureFollowsTheGlareRole :
    ∀ g ∈ [GlareRole.priority, .yield],
      let s := lab { called .bothWay .outSeizing .outgoing with glare := g, lcr := { accepted := some 0 } }
      ({} : Profile) = s.profiles.get (s.trunk 0).profile ∧ ({} : Profile).codes.validBothWay = true ∧
        (s.trunk 0).role = .bothWay ∧ (s.trunk 0).state = .outSeizing ∧
        (s.trunk 0).lcr.accepted = some ({} : Profile).codes.fSeize ∧ (s.trunk 0).glare = g ∧ (s.trunk 0).link = none := by
  decide +kernel

/-- Each action of R37 that the statement speaks of, with the row it stands in: role, state, code, and the profile's
B-BLOCK and B-GUARD. -/
theorem witness_BlockingAndUnlistedCodes :
    (∀ x ∈ [(Role.outgoing, TrunkState.idle, (7 : LineCode), LineSignal.bBlock, LineAction.remoteBlocking),
        (.bothWay, .idle, 7, .bBlock, .remoteBlocking), (.outgoing, .remoteBlocked, 1, .bIdle, .remoteUnblocking),
        (.bothWay, .remoteBlocked, 1, .bIdle, .remoteUnblocking), (.outgoing, .localBlocked, 7, .bBlock, .remoteFlag),
        (.bothWay, .failed, 7, .bBlock, .remoteFlag), (.outgoing, .outSeizing, 7, .bBlock, .remoteFlag),
        (.bothWay, .outSeizing, 7, .bBlock, .remoteFlag), (.outgoing, .failed, 1, .bIdle, .idleSignal),
        (.incoming, .failed, 1, .fIdle, .idleSignal), (.bothWay, .localBlocked, 1, .fIdle, .idleSignal),
        (.incoming, .idle, 0, .fSeize, .incomingSeizure), (.bothWay, .idle, 0, .fSeize, .incomingSeizure),
        (.outgoing, .outClearing, 1, .bIdle, .releaseComplete), (.bothWay, .outClearing, 6, .bBlock, .releaseComplete),
        (.outgoing, .idle, 1, .bIdle, .nothing), (.bothWay, .idle, 1, .fIdle, .nothing),
        (.outgoing, .outClearing, 7, .bGuard, .nothing), (.incoming, .inGuard, 1, .fClear, .nothing)],
      ∀ flag : Bool, ∀ cause ∈ [some Cause.holdLimit, none],
      let p : Profile := if x.2.2.1 = 6 then { codes := { bBlock := 6 } } else {}
      let s := lab { trunkIn x.1 x.2.1 with lcr := { accepted := some x.2.2.1 }, remoteBlock := flag, cause := cause } p
      let rows := listened (s.trunk 0).role (s.trunk 0).state
      let n := rows.findIdx fun row => p.codes.of row.1 = x.2.2.1
      p = s.profiles.get (s.trunk 0).profile ∧ p.codes.valid = true ∧ (s.trunk 0).lcr.accepted = some x.2.2.1 ∧
        (s.trunk 0).remoteBlock = flag ∧ (s.trunk 0).localBlock = false ∧ (s.trunk 0).unit = none ∧
        p.method ≠ .decadic ∧ rows = rows.take n ++ (x.2.2.2.1, x.2.2.2.2) :: rows.drop (n + 1) ∧
        (∀ row ∈ rows.take n, p.codes.of row.1 ≠ x.2.2.1) ∧ p.codes.of x.2.2.2.1 = x.2.2.1) ∧
      let s := lab { trunkIn .outgoing .outClearback with lcr := { accepted := some 6 } }
      (s.trunk 0).lcr.accepted = some 6 ∧
        ∀ row ∈ listened (s.trunk 0).role (s.trunk 0).state, ({} : Profile).codes.of row.1 ≠ 6 := by
  refine ⟨?_, ?_⟩ <;> decide +kernel

/-- A trunk with an accepted code, or in the call wait queue without a unit; y is the function the statement defines. -/
theorem witness_ReleaseAndForcedClearsSendForwardClear :
    ∀ code ∈ [none, some (3 : LineCode), some 7, some 1, some 5, some 2, some 6], ∀ waits : Bool,
      (∀ st ∈ [TrunkState.outSeizing, .outSelecting, .outWaitAnswer, .outAnswered, .outClearback, .outRejected],
        let s : State := { lab { called .outgoing st .outgoing with lcr := { accepted := code } } with
          callQueue := if waits then [⟨0, .sender, 5⟩] else [] }
        (s.trunk 0).link = none ∧ (s.trunk 0).lcr.accepted = code ∧
          ((s.trunk 0).unit = none ∨ (∀ e ∈ s.callQueue, e.trunk ≠ 0)) ∧ (s.trunk 0).role ≠ .unequipped ∧
          (s.trunk 0).state = st) ∧
      ∀ x ∈ [(TrunkState.outWaitAnswer, SupervisionKind.answerWait), (.outClearback, .clearBack)],
        let s := lab { called .outgoing x.1 .outgoing with timer := some ⟨x.2, 0⟩, lcr := { accepted := code } }
        (s.trunk 0).link = none ∧ (s.trunk 0).lcr.accepted = code ∧ (∀ e ∈ s.callQueue, e.trunk ≠ 0) ∧
          s.hwi.alignment ≠ .hold ∧ (s.trunk 0).state = x.1 ∧ (s.trunk 0).timer = some { kind := x.2, left := 0 } := by
  decide +kernel

theorem witness_GuardEndReleaseEndAndResetFreeTheTrunk :
    (∀ b : Bool, ∀ x ∈ [(Role.incoming, (none : Option LineCode)), (.incoming, some 1), (.incoming, some 4),
        (.incoming, some 0), (.bothWay, some 0)],
      let p : Profile := { codes := { fClear := 4 } }
      let s := lab { called x.1 .inGuard .incoming with
        timer := some ⟨.guard, 0⟩, localBlock := b, lcr := { accepted := x.2 } } p
      p = s.profiles.get (s.trunk 0).profile ∧ (s.trunk 0).unit = none ∧ s.hwi.alignment ≠ .hold ∧
        (s.trunk 0).state = .inGuard ∧ (s.trunk 0).timer = some { kind := .guard, left := 0 } ∧
        (s.trunk 0).role = x.1 ∧ (s.trunk 0).lcr.accepted = x.2 ∧ (s.trunk 0).localBlock = b ∧
        p.codes.fClear = 4 ∧ p.codes.fIdle = 1 ∧ p.codes.fSeize = 0) ∧
      (∀ x ∈ [(Role.outgoing, (1 : LineCode)), (.outgoing, 6), (.bothWay, 6)],
        let p : Profile := { codes := { bBlock := 6 } }
        let s := lab { called x.1 .outClearing .outgoing with lcr := { accepted := some x.2 } } p
        p = s.profiles.get (s.trunk 0).profile ∧ (s.trunk 0).unit = none ∧ (s.trunk 0).state = .outClearing ∧
          (s.trunk 0).role = x.1 ∧ (s.trunk 0).remoteBlock = false ∧ (s.trunk 0).lcr.accepted = some x.2 ∧
          p.codes.bIdle = 1 ∧ p.codes.bBlock = 6 ∧ p.codes.bGuard = 7 ∧ p.codes.fSeize ≠ 6) ∧
      (∀ st ∈ [TrunkState.outSeizing, .outAnswered, .inGuard, .failed, .localBlocked],
        ∀ code ∈ [(none : Option LineCode), some 0, some 1, some 5, some 7], ∀ b : Bool,
        let s := lab { called .bothWay st .outgoing with lcr := { accepted := code }, localBlock := b }
        (s.trunk 0).role ≠ .unequipped ∧ (s.trunk 0).state.inCall = decide (st ≠ .failed ∧ st ≠ .localBlocked) ∧
          (s.trunk 0).link = none ∧ (s.trunk 0).lcr.accepted = code ∧ (s.trunk 0).localBlock = b ∧
          (s.trunk 0).unit = none) ∧
      ∀ cause ∈ [Cause.holdLimit, .ackTimeout], ∀ b : Bool, ∀ x ∈ [(Role.outgoing, (1 : LineCode)), (.incoming, 1), (.bothWay, 1)],
        let s := lab { trunkIn x.1 .failed with cause := some cause, remoteBlock := b, lcr := { accepted := some x.2 } }
        (s.trunk 0).unit = none ∧ (s.trunk 0).state = .failed ∧ (s.trunk 0).role ≠ .unequipped ∧
          ({} : Profile).codes.valid = true ∧ (s.trunk 0).lcr.accepted = some x.2 ∧ (s.trunk 0).cause = some cause ∧
          (s.trunk 0).remoteBlock = b ∧
          x.2 = (if (s.trunk 0).role = .outgoing then ({} : Profile).codes.bIdle else ({} : Profile).codes.fIdle) ∧
          x.2 ≠ ({} : Profile).codes.bBlock := by
  refine ⟨?_, ?_, ?_, ?_⟩ <;> decide +kernel

/-- A decadic outgoing trunk in its register phase. -/
def sendingTrunk (c : DecadicSender) (st : SendStore) : State :=
  lab { called .outgoing .outSelecting .outgoing with decadic := some (.sending c), send := st } decadicProfile

theorem witness_DecadicSendingTakesPulsesAndPauses :
    ∀ x ∈ [((⟨.breaking, 10, false, some 0⟩, { digits := [0] }) : DecadicSender × SendStore),
        (⟨.making, 1, false, some 0⟩, { digits := [0] }), (⟨.making, 0, false, some 0⟩, { digits := [0] }),
        (⟨.pause, 0, false, some 0⟩, { digits := [0] }), (⟨.pause, 0, false, some 0⟩, { digits := [0], pos := 2 })],
      let s := sendingTrunk x.1 x.2
      decadicProfile = s.profiles.get (s.trunk 0).profile ∧ s.hwi.alignment ≠ .hold ∧
        (s.trunk 0).decadic = some (.sending x.1) ∧ x.1.timer = some 0 ∧
        (s.trunk 0).send.digits[(s.trunk 0).send.pos - 1]? = (if x.2.pos = 2 then none else some 0) ∧
        (s.trunk 0).send.endFlag = false := by decide +kernel

theorem witness_OutgoingRegisterPhaseEnds :
    (∀ x ∈ [((⟨.pause, 0, false, some 0⟩, { endFlag := true }) : DecadicSender × SendStore),
        (⟨.waiting, 0, false, some 0⟩, {})],
      let s := sendingTrunk x.1 x.2
      decadicProfile = s.profiles.get (s.trunk 0).profile ∧ s.hwi.alignment ≠ .hold ∧
        (s.trunk 0).state = .outSelecting ∧ (s.trunk 0).link = none ∧ (∀ e ∈ s.callQueue, e.trunk ≠ 0) ∧
        (s.trunk 0).decadic = some (.sending x.1) ∧ x.1.timer = some 0 ∧
        (s.trunk 0).send.digits[(s.trunk 0).send.pos - 1]? = none ∧
        (s.trunk 0).send.endFlag = decide (x.1.phase = .pause)) ∧
      ∀ k ∈ [ToneTimerKind.senderWait, .interlock],
        let s := sender ⟨.waiting, none, none, none, some ⟨k, 0⟩⟩ {}
        toneProfile = s.profiles.get (s.trunk 0).profile ∧ s.hwi.alignment ≠ .hold ∧ (s.trunk 0).state = .outSelecting ∧
          (s.trunk 0).link = none ∧ (∀ e ∈ s.callQueue, e.trunk ≠ 0) ∧
          (s.trunk 0).tone = some (.sender ⟨.waiting, none, none, none, some { kind := k, left := 0 }⟩) := by decide +kernel

/-- A decadic incoming trunk in its register phase, with some digits stored. -/
def countingTrunk (c : DecadicReceiver) (ds : List Digit) : State :=
  lab { called .incoming .inSelecting .incoming with
    decadic := some (.receiving c), received := { digits := ds }, lcr := { accepted := some 0 } } decadicProfile

/-- An incoming trunk in its register phase under a TABLE profile, with the table of `threeTable`. -/
def tableTrunk (r : Trunk) (m : RegisterMethod) (o : DefaultOutcome := .openNumber) : State :=
  threeTable (lab r { method := m, mode := .table, defaultOutcome := o })

/-- The hypotheses on a receiving context when a code is decoded in IN-SELECTING. -/
abbrev heard (c : DecadicReceiver) (code : LineCode) (s : State) : Prop :=
  (s.profiles.get (s.trunk 0).profile).method = .decadic ∧ (s.trunk 0).state = .inSelecting ∧ (s.trunk 0).link = none ∧
    (s.trunk 0).decadic = some (.receiving c) ∧ (s.trunk 0).lcr.accepted = some code ∧
    (s.trunk 0).received.digits.length = 23 ∧ ∀ e ∈ s.callQueue, e.trunk ≠ 0

/-- The state of such a trunk. -/
def hearing (c : DecadicReceiver) (code : LineCode) : State :=
  lab { called .incoming .inSelecting .incoming with
    decadic := some (.receiving c), received := { digits := List.replicate 23 0 }, lcr := { accepted := some code } }
    decadicProfile

theorem witness_DecadicDigitEnds :
    (∀ x ∈ [(CountPhase.counting, 10, 23), (.counting, 1, 24), (.counting, 10, 24), (.counting, 11, 0),
        (.rejecting, 0, 0)],
      let c : DecadicReceiver := ⟨x.1, .made, 200, x.2.1, none, some 0, none, false⟩
      let s := countingTrunk c (List.replicate x.2.2 0)
      decadicProfile = s.profiles.get (s.trunk 0).profile ∧ s.hwi.alignment ≠ .hold ∧
        (s.trunk 0).decadic = some (.receiving c) ∧ c.digitEnd = some 0 ∧ (s.trunk 0).link = none ∧
        decadicProfile.mode = .host ∧ (s.trunk 0).state = .inSelecting ∧ (s.trunk 0).lcr.accepted = some 0 ∧
        (s.trunk 0).received.digits.length = x.2.2) ∧
    (∀ x ∈ [(DefaultOutcome.openNumber, [(3 : Digit), 2], (Standing.complete, some 3)), (.openNumber, [3], (.undecided, none)),
        (.openNumber, [], (.openNumber, none)), (.refuse, [], (.refused, none))],
      let c : DecadicReceiver := ⟨.counting, .made, 200, 1, none, some 0, none, false⟩
      let s := tableTrunk { called .incoming .inSelecting .incoming with
        decadic := some (.receiving c), received := { digits := x.2.1 } } .decadic x.1
      let p := s.profiles.get (s.trunk 0).profile
      s.hwi.alignment ≠ .hold ∧ (s.trunk 0).decadic = some (.receiving c) ∧ (s.trunk 0).link = none ∧ p.mode = .table ∧
        (s.trunk 0).received.digits = x.2.1 ∧ x.2.1.length < 24 ∧ (s.trunk 0).state = .inSelecting ∧
        analyse s.analysis.toList (s.trunk 0).group p.defaultOutcome (x.2.1 ++ [1]) = x.2.2) ∧
    (let b := decadicProfile.codes.fClear
      let p := decadicProfile
      b ≠ p.codes.fSeize ∧ heard ⟨.counting, .broken, 9, 0, none, none, some 9, false⟩ b
          (hearing ⟨.counting, .broken, 9, 0, none, none, some 9, false⟩ b) ∧
        heard ⟨.between, .made, 9, 0, none, none, none, true⟩ b (hearing ⟨.between, .made, 9, 0, none, none, none, true⟩ b) ∧
        ∀ x ∈ [(CountPhase.between, 0), (.rejecting, p.digitEnd), (.rejecting, p.digitEnd - 1), (.counting, p.digitEnd - 1),
            (.counting, p.makeMin), (.counting, p.makeMin - 1), (.counting, p.digitEnd)],
          let c : DecadicReceiver := ⟨x.1, .made, x.2, 10, none, some 0, none, false⟩
          heard c b (hearing c b) ∧ p.makeMin ≤ p.digitEnd) ∧
    (let m := decadicProfile.codes.fSeize
      let p := decadicProfile
      heard ⟨.counting, .made, 9, 0, none, none, none, false⟩ m (hearing ⟨.counting, .made, 9, 0, none, none, none, false⟩ m) ∧
        (∀ x ∈ [(CountPhase.counting, p.breakMin), (.counting, p.breakMax), (.counting, p.breakMin - 1),
            (.counting, p.breakMax + 1), (.rejecting, p.clearRecognition - 1), (.rejecting, p.clearRecognition)],
          let c : DecadicReceiver := ⟨x.1, .broken, x.2, 1, none, none, some 9, false⟩
          heard c m (hearing c m) ∧ p.breakMax + 1 < p.clearRecognition) ∧
        ∀ n ∈ [0, 1], let c : DecadicReceiver := ⟨.between, .broken, 9, 0, none, none, some n, true⟩
          heard c m (hearing c m)) ∧
    ∀ st ∈ [TrunkState.inWaitAnswer, .inAnswered, .inClearback, .inRejected], ∀ code ∈ [(0 : LineCode), 1],
      ∀ w ∈ [(⟨.made, none⟩ : ClearWatch), ⟨.broken, some 0⟩, ⟨.broken, some 1⟩],
        let s := lab { called .incoming st .incoming with decadic := some (.watching w), lcr := { accepted := some code } }
          decadicProfile
        (s.trunk 0).state = st ∧ (s.trunk 0).decadic = some (.watching w) ∧ (s.trunk 0).lcr.accepted = some code ∧
          (s.trunk 0).link = none ∧ ∀ e ∈ s.callQueue, e.trunk ≠ 0 := by
  refine ⟨?_, ?_, ?_, ?_, ?_⟩ <;> decide +kernel

theorem witness_DecadicDigitWaitEndsTheNumber :
    ∀ k ∈ [DigitWaitKind.firstDigit, .interDigit, .openNumber], ∀ ds ∈ [([] : List Digit), [0]],
      let c : DecadicReceiver := ⟨.between, .made, 200, 0, some ⟨k, 0⟩, none, none, false⟩
      let s := countingTrunk c ds
      decadicProfile = s.profiles.get (s.trunk 0).profile ∧ s.hwi.alignment ≠ .hold ∧ (s.trunk 0).state = .inSelecting ∧
        (s.trunk 0).link = none ∧ (s.trunk 0).decadic = some (.receiving c) ∧ c.phase = .between ∧
        c.wait = some { kind := k, left := 0 } := by decide +kernel

/-- The test unit with T0 in the call wait queue. -/
def waiting (role : UnitRole) (r : Trunk) : State :=
  { lab r toneProfile with callQueue := [⟨0, role, 0⟩] }

theorem witness_WaitQueueExpiriesGiveNoUnit :
    (∀ x ∈ [(UnitRole.sender, TrunkState.outSelecting), (.receiver, .inSelecting)],
      let s := waiting x.1 (called .bothWay x.2 .outgoing)
      s.hwi.alignment ≠ .hold ∧ (s.trunk 0).link = none ∧ (∀ e ∈ s.callQueue, e.trunk = 0 ∧ e.left = 0) ∧
        s.callQueue.length = 1 ∧ (∀ e ∈ s.callQueue, e.role = x.1) ∧ (s.trunk 0).state = x.2) ∧
      let s := { lab (trunkIn .incoming .idle) with testQueue := [⟨0, 1, 0⟩] }
      s.hwi.alignment ≠ .hold ∧ (s.trunk 0).link = none ∧ ∃ r ∈ s.testQueue, r.trunk = 0 ∧ r.left = 0 := by
  decide +kernel

/-- U0 in a status, with a block of silence that has ended. -/
def blockEnded (st : UnitStatus) (rec : Recognition) (s : State) : State :=
  s.mapUnit 0 fun u => { u with status := st, ended := some ⟨Vector.replicate 10 {}, 0⟩, recognition := rec }

/-- A measuring unit with the sums of the Worked Measurement after two of three blocks, and a third block of silence. -/
def measured : State :=
  (lab {}).mapUnit 0 fun u => { u with
    status := .measuring 0 3 2, ended := some ⟨Vector.replicate 10 {}, 0⟩, energySum := 393600000
    powerSums := #v[19200000000, 12288000000, 45000000, 0, 0, 0, 0, 0, 0, 0] }

theorem witness_ToneBlocksOfAMeasurementAndInHold :
    (((blockEnded (.measuring 0 2 0) {} (holding {})).unit 0).ended = some ⟨Vector.replicate 10 {}, 0⟩ ∧
      (blockEnded (.measuring 0 2 0) {} (holding {})).hwi.alignment = .hold) ∧
    (∀ x ∈ [(2, 0), (3, 1)],
      let s := blockEnded (.measuring 0 x.1 x.2) {} (lab {})
      (s.unit 0).ended = some ⟨Vector.replicate 10 {}, 0⟩ ∧ s.hwi.alignment ≠ .hold ∧
        (s.unit 0).status = .measuring 0 x.1 x.2 ∧ x.2 + 1 < x.1) ∧
    (let s := measured
      let b : EndedBlock := ⟨Vector.replicate 10 {}, 0⟩
      let e := (s.unit 0).energySum + b.energy
      let sums := Vector.zipWith (· + ·) (s.unit 0).powerSums b.powers
      (s.unit 0).ended = some b ∧ s.hwi.alignment ≠ .hold ∧ (s.unit 0).status = .measuring 0 3 2 ∧ 3 ≤ 2 + 1 ∧
        905 * 905 * (160 * 3) ≤ e ∧ e < (905 + 1) * (905 + 1) * (160 * 3) ∧ (∀ j, sums.get j ≤ sums.get 0) ∧
        (∀ j < (0 : Fin 10), sums.get j < sums.get 0) ∧ 80000 * 80000 ≤ sums.get 0 / 3 ∧
        sums.get 0 / 3 < (80000 + 1) * (80000 + 1)) ∧
    ((lab {}).unit 0).ended = none ∧ (blockEnded .free {} (lab {})).hwi.alignment ≠ .hold := by
  refine ⟨?_, ?_, ?_, ?_⟩ <;> decide +kernel

/-- The test unit with a block of a tone signal that has ended on U0 for T0: 160 samples of the signal as generated. -/
def blockOf (sig : ToneSignal) (role : UnitRole) (rec : Recognition) : State :=
  let s := lab { trunkIn .bothWay .inSelecting with unit := some ⟨0, role⟩ } toneProfile
  let tone := (List.range 160).map fun n => (Generation.mk sig 1600 n).code
  (s.mapUnit 0 fun _ => tone.foldl ToneUnit.takeSample { status := .signalling 0 role }).mapUnit 0 fun u =>
    { u with recognition := rec }

/-- The first block of FT1 or BT6 sent at 1600 is decided as that signal, and a block of silence as none. -/
theorem witness_RecognitionAndCessation :
    let amp := toneProfile.minAmplitude
    (∀ x ∈ [(UnitRole.receiver, ToneSignal.forward .ft1), (.sender, .backward .bt6)],
      ∀ rec ∈ [({} : Recognition), { previous := .decided x.2 }, { recognised := some x.2, count := 1 }],
      let s := blockOf x.2 x.1 rec
      (s.unit 0).status = .signalling 0 x.1 ∧ s.hwi.alignment ≠ .hold ∧ (s.unit 0).recognition = rec ∧
        ((s.unit 0).ended.map fun b => decideBlock x.1 amp b) = some (some x.2)) ∧
      ∀ rec ∈ [({} : Recognition), { recognised := some (.forward .ft1), count := 0 },
          { recognised := some (.forward .ft1), count := 1 }],
        let s := blockEnded (.signalling 0 .receiver) rec (lab {} toneProfile)
        (s.unit 0).status = .signalling 0 .receiver ∧ s.hwi.alignment ≠ .hold ∧ (s.unit 0).recognition = rec ∧
          ((s.unit 0).ended.map fun b => decideBlock .receiver amp b) = some none := by decide +kernel

theorem witness_ToneSenderIsAnsweredAndSendsTheNextItem :
    (∀ ph ∈ [ToneSendPhase.sending, .waiting],
      let c : ToneSender := ⟨ph, some (.digit 1), some 1, none, some ⟨.interlock, 9⟩⟩
      let s := sender c { digits := [3] }
      toneProfile = s.profiles.get (s.trunk 0).profile ∧ (s.trunk 0).tone = some (.sender c) ∧
        (s.trunk 0).unit = some ⟨2, .sender⟩) ∧
      (∀ b ∈ [BackwardSignal.bt1, .bt2, .bt3], ∀ k ∈ [Category.ordinary, .priority, .test],
        let c : ToneSender := ⟨.answered, some (.digit 1), some 1, some b, some ⟨.interlock, 9⟩⟩
        let s := (sender c { digits := [3], endFlag := true }).mapTrunk 0 fun r => { r with
          record := some { openCall .outgoing with category := some k } }
        (s.trunk 0).tone = some (.sender c) ∧ (s.trunk 0).unit = some ⟨2, .sender⟩ ∧ (s.trunk 0).send.pos = 1 ∧
          (s.trunk 0).send.digits[1 - 1]? = some 3 ∧ (s.trunk 0).send.digits.length = 1 ∧
          (s.trunk 0).send.endFlag = true ∧ ((s.trunk 0).record.map (·.category)) = some (some k)) ∧
      (∀ b ∈ [BackwardSignal.bt1, .bt3], ∀ i ∈ [SendItem.category, .endOfNumber, .digit 1],
        let c : ToneSender := ⟨.answered, some i, some 1, some b, some ⟨.interlock, 9⟩⟩
        let s := sender c { digits := [3], pos := 2 }
        (s.trunk 0).tone = some (.sender c) ∧ (s.trunk 0).unit = some ⟨2, .sender⟩ ∧ (s.trunk 0).send.pos = 1 + 1 ∧
          ((s.trunk 0).record.map (·.category)) = some (some .ordinary)) ∧
      ∀ b ∈ [BackwardSignal.bt2, .bt4, .bt5, .bt6],
        let c : ToneSender := ⟨.answered, some .endOfNumber, none, some b, some ⟨.interlock, 9⟩⟩
        let s := sender c { endFlag := true }
        (s.trunk 0).tone = some (.sender c) ∧ (s.trunk 0).unit = some ⟨2, .sender⟩ ∧ (s.trunk 0).state = .outSelecting ∧
          (s.trunk 0).link = none := by
  refine ⟨?_, ?_, ?_, ?_⟩ <;> decide +kernel

/-- A tone receiver on T0 with U2. -/
def receiver (c : ToneReceiver) (ds : List Digit) (p : Profile := toneProfile) : State :=
  let s := lab { called .incoming .inSelecting .incoming with
    tone := some (.receiver c), unit := some ⟨2, .receiver⟩, received := { digits := ds } } p
  s.mapUnit 2 fun u => { u with status := .signalling 0 .receiver }

/-- The hypotheses on T0's receiving context in a state. -/
abbrev answering (c : ToneReceiver) (ds : List Digit) (s : State) : Prop :=
  (s.trunk 0).tone = some (.receiver c) ∧ (s.trunk 0).unit = some ⟨2, .receiver⟩ ∧ (s.trunk 0).received.digits = ds ∧
    (s.trunk 0).state = .inSelecting ∧ (s.trunk 0).decadic = none

/-- T0 as a tone inlet of T6. -/
def inletOfSix (s : State) : State :=
  (s.mapTrunk 0 fun r => { r with link := some ⟨6, .inlet⟩, linkRecord := some ⟨0, 1, false⟩ }).mapTrunk 6 fun _ =>
    { called .outgoing .outSeizing .outgoing with link := some ⟨0, .outlet⟩ }

theorem witness_ToneReceiverAnswersAndReturnsToListening :
    (ForwardSignal.ft1.meaning = .digit 1 ∧ ForwardSignal.ft10.meaning = .digit 0 ∧
      ForwardSignal.ft14.meaning = .category .test ∧ ∀ k, ForwardSignal.ft15.meaning ≠ .category k) ∧
    (∀ ph ∈ [ToneReceivePhase.listening, .responding, .pulsing, .held, .final], ∀ mode ∈ [AnalysisMode.host, .table],
      ∀ policy ∈ [CategoryPolicy.never, .afterFirstDigit], ∀ n ∈ [0, 1, 23, 24],
        let c : ToneReceiver := ⟨ph, none, false, false, false, none⟩
        let p : Profile := { toneProfile with mode := mode, categoryPolicy := policy }
        let s := receiver c (List.replicate n 0) p
        answering c (List.replicate n 0) s ∧ p = s.profiles.get (s.trunk 0).profile ∧ (s.trunk 0).link = none ∧
          (s.trunk 0).received.category = none ∧ (List.replicate n (0 : Digit)).length = n) ∧
    (∀ x ∈ [(DefaultOutcome.refuse, some 2, (Standing.refused, none)), (.openNumber, some 1, (.complete, some 1)),
        (.openNumber, some 2, (.openNumber, none))],
      let s := receiver ⟨.listening, none, false, false, false, none⟩ []
        { toneProfile with mode := .table, defaultOutcome := x.1 }
      let s := { s with analysis := s.analysis.set 0 (entry 255 [x.2.1] .fixed 1) }
      analyse s.analysis.toList (s.trunk 0).group x.1 ([] ++ [1]) = x.2.2) ∧
    (∀ ph ∈ [ToneReceivePhase.listening, .responding], ∀ o ∈ [RegOutcome.complete, .reject .congestion], ∀ own : Bool,
      let c : ToneReceiver := ⟨ph, some ⟨o, own⟩, false, false, false, none⟩
      answering c [] (receiver c [])) ∧
    ∀ done : Bool,
      let c : ToneReceiver := ⟨.listening, none, false, done, false, none⟩
      let s := inletOfSix (receiver c [0])
      answering c [0] s ∧ (s.trunk 0).link = some { peer := 6, part := .inlet } ∧ (6 : TrunkNo) ≠ 0 ∧
        (s.trunk 6).decadic = none ∧ (s.trunk 6).tone = none := by
  refine ⟨⟨by decide, by decide, by decide, fun k => nofun⟩, ?_, ?_, ?_, ?_⟩ <;> decide +kernel

theorem witness_ReceiverTimersEndTheRegisterPhase :
    (∀ x ∈ [(ToneReceivePhase.pulsing, ToneTimerKind.pulse, false), (.responding, .interlock, false),
        (.final, .interlock, false), (.listening, .interDigit, false), (.listening, .openNumber, false),
        (.held, .hostDecision, false), (.held, .hostDecision, true)], ∀ ds ∈ [([] : List Digit), [0]],
      let c : ToneReceiver := ⟨x.1, none, false, false, x.2.2, some ⟨x.2.1, 0⟩⟩
      let s := receiver c ds
      toneProfile = s.profiles.get (s.trunk 0).profile ∧ s.hwi.alignment ≠ .hold ∧ answering c ds s ∧
        (∀ e ∈ s.callQueue, e.trunk ≠ 0) ∧ (s.trunk 0).link = none ∧ s.callQueue = [] ∧ s.testQueue = []) ∧
      ∀ k ∈ [ToneTimerKind.interDigit, .openNumber],
        (∀ o ∈ [RegOutcome.complete, .reject .congestion],
          let c : ToneReceiver := ⟨.listening, some ⟨o, true⟩, false, false, false, some ⟨k, 0⟩⟩
          answering c [0] (receiver c [0]) ∧ (receiver c [0]).hwi.alignment ≠ .hold) ∧
        let c : ToneReceiver := ⟨.listening, none, false, false, false, some ⟨k, 0⟩⟩
        let s := inletOfSix (receiver c [0])
        answering c [0] s ∧ toneProfile.mode = .host ∧ (s.trunk 0).link = some { peer := 6, part := .inlet } ∧
          (6 : TrunkNo) ≠ 0 ∧ (s.trunk 6).decadic = none ∧ (s.trunk 6).tone = none ∧ s.hwi.alignment ≠ .hold := by
  refine ⟨?_, ?_⟩ <;> decide +kernel

/-- The test unit with a number of sequenced reports, none of a condition kind. -/
def reporting (n : Nat) : State :=
  let s := lab {}
  { s with rqa := { s.rqa with entries := List.replicate n ⟨.remoteBlock, some 3, 0, 0, 0⟩ } }

theorem witness_ReportsJoinMergeOrAreDropped :
    (ReportBody.lineAnomaly 0 .digitError).isCondition = true ∧ ReportBody.remoteUnblock.isCondition = false ∧
      (∀ n ∈ [55, 56], (reporting n).rqa.entries.length = n ∧
        ¬ ∃ e ∈ (reporting n).rqa.entries, e.body.kindCode = 0x40 ∧ e.trunk = some 5) ∧
      (∃ e ∈ [(⟨.lineAnomaly 1 .digitError, some 5, 0, 255, 0⟩ : ReportEntry)], e.body.kindCode = 0x40 ∧
        e.trunk = some 5) ∧
      (∀ n ∈ [63, 64], (reporting n).rqa.entries.length = n) ∧ (lab {}).fault.held = none ∧
      ({ lab {} with fault := { held := some ⟨.holdLimit, none, 0⟩ } } : State).fault.held ≠ none := by decide +kernel

theorem witness_FrameHandsItsPayloadToTheCommand :
    ((0x10, Instr.seize) : Byte × (List Byte → Instr)).1 ∈ messageTypes.map Prod.fst ∧
      (List.replicate 249 0 : List Byte).length ≤ 249 ∧ State.reset.clk.addressValid = true ∧
      State.reset.clk.reply = none := by decide +kernel

/-- A unit whose strapped address is invalid. -/
def badAddress : State := { State.reset with clk := { State.reset.clk with addressValid := false } }

theorem witness_FramesThatReachNoCommand :
    badAddress.clk.addressValid = false ∧ State.reset.clk.addressValid = true ∧ State.reset.clk.reply = none ∧
      (∀ f ∈ [(⟨.own, true, [0]⟩ : Frame), ⟨.own, false, [2, 0x13, 3, 0]⟩, ⟨.broadcast, true, [251]⟩,
          ⟨.broadcast, false, [1, 0x34, 0]⟩],
        f.wellFormed = true ∧ (f.errored = true ∨ f.data.length = 1 ∨ f.data.foldl (· + ·) 0 ≠ 0)) ∧
      (∀ d ∈ [Dest.own, .broadcast], let f : Frame := { ownFrame 0x36 [] with dest := d }
        f.wellFormed = true ∧ f.errored = false ∧ f.data[1]? = some 0x36 ∧ f.data.foldl (· + ·) 0 = 0 ∧
          0x36 ∉ messageTypes.map Prod.fst ∧ (0x36 : Byte) ≠ 0x34 ∧ (0x36 : Byte) ≠ 0x35) ∧
      ∀ ty ∈ [(0x34 : Byte), 0x35], ({ ownFrame ty (List.replicate 249 0) with dest := .broadcast } : Frame).wellFormed =
        true := by decide +kernel

theorem witness_HeldCommandDiscardsFrames :
    ∀ b : Bool, ∀ d ∈ [Dest.own, .broadcast],
      let s := { unitFive with clk := { unitFive.clk with reply := some [charBits 0x85 true], resetPending := b } }
      let f : Frame := { ownFrame 0x16 [3] with dest := d }
      f.wellFormed = true ∧ s.clk.reply = some [charBits 0x85 true] ∧ s.clk.addressValid = true ∧ s.clk.resetPending = b := by
  decide +kernel

theorem witness_RepliesAreCheckedFrames : (List.replicate 248 0 : List Byte).length ≤ 248 := by decide +kernel

/-- The first 169 samples of a character, up to the ninth of its stop bit, with the hypotheses of the statement on them. -/
abbrev sampled (c : Character) : Prop :=
  let x := c.samples.take 169
  let bit := fun k => decide (2 ≤ ((x.drop (16 * k + 6)).take 3).count true)
  x.length = 169 ∧ x[0]? = some false ∧ bit 0 = false ∧ (∀ k < 8, c.data.getLsbD k = bit (k + 1)) ∧ c.marker = bit 9 ∧
    c.framingError = !bit 10

theorem witness_CharactersAreVotedAndCarried :
    (∀ x ∈ [([] : List Bool), [false], List.replicate 9 false], ∀ v ∈ x, v = false) ∧
      (∀ x ∈ [([] : List Bool), [true]], ∀ v ∈ x, v = true) ∧
      unitFive.clk.receiver = { search := .searching, level := true } ∧
      (∀ x ∈ [[false, false, false, false, false, false, true, true, false],
          [false, false, false, false, false, false, true, true, true]],
        x.length = 9 ∧ x[0]? = some false ∧ 2 ≤ ((x.drop 6).take 3).count true) ∧
      (∀ data ∈ [(31 : Byte), 5, 6], sampled ⟨data, true, false⟩ ∧ unitFive.clk.addressValid = true ∧
        unitFive.clk.address.toNat = 5) ∧
      (sampled ⟨5, false, false⟩ ∧ sampled ⟨5, true, true⟩ ∧ sampled ⟨5, false, true⟩ ∧ unitFive.clk.collection = .idle) ∧
      ∀ x ∈ [(([] : List Byte), (0 : Byte)), ([], 251), ([], 1), ([], 250), ([1], 0x33), ([1, 0x33], 0xCC)],
        sampled ⟨x.2, false, false⟩ ∧ ∀ l ∈ x.1.head?, 1 ≤ l.toNat ∧ l.toNat ≤ 250 := by
  refine ⟨?_, ?_, ?_, ?_, ?_, ?_, ?_⟩ <;> decide +kernel

theorem witness_CharactersAssembleTheFrame :
    ∀ p ∈ [([] : List Byte), [3], List.replicate 249 0],
      (ownFrame 0x13 p).wellFormed = true ∧ (ownFrame 0x13 p).errored = false ∧
        unitFive.clk.receiver = { search := .searching, level := true } ∧
        (5 : Byte) = unitFive.clk.address.setWidth 8 ∧ unitFive.clk.addressValid = true ∧ unitFive.clk.address ≠ 31 ∧
        ({ ownFrame 0x13 p with dest := .broadcast } : Frame).wellFormed = true := by decide +kernel

theorem witness_QueriesReturnTheStoredRecords : (unitFive.trunk 3).role ≠ .unequipped := by decide +kernel

theorem witness_SetTrunkWritesTheConfiguration :
    (∀ st ∈ [TrunkState.unequipped, .idle, .localBlocked, .remoteBlocked, .failed],
      let s := lab (trunkIn .outgoing st)
      (s.profiles.get 3).codes.validBothWay = true ∧ (s.trunk 0).state = st ∧ ∀ r ∈ s.testQueue, r.trunk ≠ 0) ∧
      ∀ u asked done, ((lab (trunkIn .outgoing .idle)).unit u).status ≠ .measuring 0 asked done :=
  ⟨by decide +kernel, fun u => lab_measures_nothing _ _ _ u 0⟩

/-- Entries of both ends of the ranges are sound. -/
theorem witness_AnalysisEntriesAreStoredAndReadBack :
    (entry 255 [some 0] .fixed 1).sound ∧
      (entry 255 [some 9, none, some 9, none, some 9, none] .refuse 24).sound := by
  constructor <;> refine ⟨?_, ?_, ?_, ?_⟩ <;> decide +kernel

theorem witness_SetReportingStoresThreeValuesAtOnce :
    (holding {}).hwi.holdTimer = some ⟨0, 2000⟩ ∧ (holding {}).hwi.holdLimit ≠ 255 ∧ (holding {}).hwi.holdLimit = 20 ∧
      State.reset.hwi.holdTimer = none ∧ ([0, 0] : List Byte).length ≠ 3 ∧ ([0, 0, 0, 0] : List Byte).length ≠ 3 := by
  decide +kernel

theorem witness_HostAnswersClearsBackBlocksAndUnblocks :
    ∀ st ∈ [TrunkState.inWaitAnswer, .inClearback, .inAnswered, .idle, .remoteBlocked, .localBlocked],
      ∀ code ∈ [(none : Option LineCode), some 0, some 1, some 6, some 7],
      let s := lab { called .bothWay st .incoming with lcr := { accepted := code } }
      ({} : Profile) = s.profiles.get (s.trunk 0).profile ∧ (s.trunk 0).role ≠ .unequipped ∧ (s.trunk 0).state = st ∧
        (s.trunk 0).lcr.accepted = code := by decide +kernel

/-- A record at its defaults, and one with a setting below its range. -/
theorem witness_SetProfileReplacesAClampedRecord :
    (∀ pr ∈ [({} : Profile), { linePersistence := 1 }],
      let s := lab (trunkIn .bothWay .idle)
      pr.bytes.length = 49 ∧ readProfile pr.bytes = some pr ∧ pr.codes.valid = true ∧
        (∀ t, (s.trunk t).role = .bothWay → (s.trunk t).profile = 0 → pr.codes.validBothWay = true) ∧
        (∀ t, (s.trunk t).role ≠ .unequipped → (s.trunk t).profile = 0 →
          (s.trunk t).state.inCall = false ∧ (s.trunk t).lcr.accepted = none)) ∧
      ∀ st ∈ [TrunkState.idle, .localBlocked, .remoteBlocked, .failed],
        let s := lab { trunkIn .bothWay st with lcr := { accepted := some 0 } }
        (∀ t, (s.trunk t).role = .bothWay → (s.trunk t).profile = 0 → ({} : Profile).codes.validBothWay = true) ∧
          ∀ t, (s.trunk t).role ≠ .unequipped → (s.trunk t).profile = 0 → (s.trunk t).state.inCall = false := by
  decide +kernel

/-- The inlet T6 of the next witness, with 24 digits stored. -/
def inletSix (tone : Option ToneContext) (role : Role) : State :=
  let s := lab (trunkIn role .idle) decadicProfile
  { s with trunks := s.trunks.set 6 { trunkIn .incoming .inSelecting with
      tone := tone, received := { digits := List.replicate 24 0 } } }

theorem witness_SeizeStartsAnOutgoingCall :
    (∀ role ∈ [Role.outgoing, .bothWay], ∀ tone ∈ [none, some (.receiver ⟨.listening, none, false, false, false, none⟩)],
      let s := inletSix tone role
      decadicProfile = s.profiles.get (s.trunk 0).profile ∧ ((s.trunk 0).role = .outgoing ∨ (s.trunk 0).role = .bothWay) ∧
        (s.trunk 0).state = .idle ∧ (List.replicate 24 (9 : Digit)).length ≤ 24 ∧ (6 : TrunkNo) ≠ 0 ∧
        (s.trunk 6).role ≠ .unequipped ∧ (s.trunk 6).state = .inSelecting ∧ (s.trunk 6).link = none ∧
        (s.trunk 6).tone = tone ∧ decadicProfile.method ≠ .noRegister ∧
        (List.replicate 4 (9 : Digit)).length ≤ 4 ∧ 4 + ((s.trunk 6).received.digits.length - 4) ≤ 24 ∧
        0 + ((s.trunk 6).received.digits.length - 24) ≤ 24 ∧ (s.trunk 6).received.endReceived = false) ∧
      ∀ c, (none : Option ToneContext) = some (.receiver c) → c.pending = none :=
  ⟨by decide +kernel, fun _ h => nomatch h⟩

theorem witness_HostAddsAndJudgesDigits :
    (∀ st ∈ [TrunkState.outSeizing, .outSelecting, .outWaitAnswer, .outAnswered, .outClearback, .outRejected],
      let s := lab { called .outgoing st .outgoing with send := { digits := List.replicate 23 0 } } decadicProfile
      decadicProfile = s.profiles.get (s.trunk 0).profile ∧ (s.trunk 0).role ≠ .unequipped ∧ (s.trunk 0).link = none ∧
        (s.trunk 0).state = st ∧ (s.trunk 0).send.endFlag = false ∧
        (s.trunk 0).send.digits.length + [(0 : Digit)].length ≤ 24 ∧ (s.trunk 0).decadic = none ∧
        (s.trunk 0).tone = none) ∧
      (let s := sendingTrunk ⟨.waiting, 0, false, some 9⟩ { digits := [1], pos := 2 };
        (s.trunk 0).state = .outSelecting ∧ (s.trunk 0).send.endFlag = false ∧ (s.trunk 0).send.digits.length < 24 ∧
          (s.trunk 0).send.pos = (s.trunk 0).send.digits.length + 1 ∧
          (s.trunk 0).decadic = some (.sending ⟨.waiting, 0, false, some 9⟩) ∧ s.hwi.alignment ≠ .hold) ∧
      (let s := countingTrunk ⟨.between, .made, 200, 0, some ⟨.firstDigit, 9⟩, none, none, false⟩ [1];
        (s.trunk 0).role ≠ .unequipped ∧ (s.trunk 0).link = none ∧ (s.trunk 0).state = .inSelecting ∧
          (s.trunk 0).linkRecord = none ∧ (s.trunk 0).tone = none) ∧
      (∀ ph ∈ [ToneSendPhase.waiting, .sending, .answered], ∀ n ∈ [0, 23],
        let c : ToneSender := ⟨ph, none, none, none, none⟩
        let s := sender c { digits := List.replicate n 0, pos := n + 1 }
        (s.trunk 0).state = .outSelecting ∧ (s.trunk 0).send.endFlag = false ∧
          (s.trunk 0).send.digits.length + [(0 : Digit)].length ≤ 24 ∧ (s.trunk 0).decadic = none ∧
          (s.trunk 0).tone = some (.sender c) ∧ (s.trunk 0).unit = some ⟨2, .sender⟩) ∧
      (∀ ph ∈ [SendPhase.waiting, .pause, .breaking, .making], ∀ a ∈ [Machine.Alignment.aligned, .hold],
        let c : DecadicSender := ⟨ph, 0, false, some 9⟩
        let s := sendingTrunk c { digits := [1], pos := 2 }
        let s := { s with hwi := { s.hwi with alignment := a } }
        (s.trunk 0).state = .outSelecting ∧ (s.trunk 0).send.endFlag = false ∧
          (s.trunk 0).send.digits.length + [(0 : Digit)].length ≤ 24 ∧ (s.trunk 0).decadic = some (.sending c) ∧
          (s.trunk 0).send.pos = (s.trunk 0).send.digits.length + 1 ∧ s.hwi.alignment = a) ∧
      ∀ o ∈ [none, some (⟨.complete, true⟩ : PendingOutcome)],
        let c : ToneReceiver := ⟨.responding, o, false, false, false, none⟩
        answering c [0] (receiver c [0]) ∧ ((receiver c [0]).trunk 0).linkRecord = none := by
  refine ⟨?_, ?_, ?_, ?_, ?_, ?_⟩ <;> decide +kernel

/-- The test unit with every tone unit held for T1's signalling and a number of waiting requests of T2. -/
def fullPool (n : Nat) : State :=
  { lab (trunkIn .incoming .idle) with
    units := Vector.replicate 8 { status := .signalling 1 .receiver }, testQueue := List.replicate n ⟨2, 1, 9⟩ }

theorem fullPool_measures_nothing (n : Nat) : ∀ u a d, ((fullPool n).unit u).status ≠ .measuring 0 a d := by
  intro u a d; simp [fullPool, State.unit]

theorem witness_MeasureIsGrantedOrQueued :
    (let s := lab (trunkIn .incoming .idle);
      (s.trunk 0).role ≠ .unequipped ∧ (s.trunk 0).unit = none ∧ (∀ e ∈ s.callQueue, e.trunk ≠ 0) ∧
        (∀ r ∈ s.testQueue, r.trunk ≠ 0) ∧ s.hwi.alignment ≠ .hold ∧ (s.unit 0).status = .free ∧
        ∀ v < (0 : UnitNo), (s.unit v).status ≠ .free) ∧
      (∀ n ∈ [3, 4], let s := fullPool n
        (s.trunk 0).role ≠ .unequipped ∧ (s.trunk 0).unit = none ∧ (∀ e ∈ s.callQueue, e.trunk ≠ 0) ∧
          (∀ r ∈ s.testQueue, r.trunk ≠ 0) ∧ (∀ u, (s.unit u).status ≠ .free) ∧ s.testQueue.length = n) ∧
      ∀ u a d, ((lab (trunkIn .incoming .idle)).unit u).status ≠ .measuring 0 a d :=
  ⟨by decide +kernel, by decide +kernel, fun u => lab_measures_nothing _ _ _ u 0⟩

theorem witness_PollDeliversFromTheHead :
    (reporting 64).rqa.entries ≠ [] ∧ ∀ e ∈ (reporting 64).rqa.entries, e.bytes.length ≤ 240 := by decide +kernel

theorem witness_ReadTrafficCarriesTheCounters :
    ([0] : List Byte).length ≠ 2 ∧ ([0, 0, 0] : List Byte).length ≠ 2 ∧ 7 < (8 : Byte).toNat ∧ 1 < (2 : Byte).toNat := by
  decide

theorem witness_FaultRecordIsReadAndClearedAsRead :
    State.reset.fault.held = none ∧
      (let s : State := { State.reset with fault := { held := some ⟨.trunkFailed, some 4, 9⟩, further := true } };
        s.fault.held = some ⟨.trunkFailed, some 4, 9⟩ ∧
          (([0, 0, 0, 9] : List Byte) ≠ bytesOf 4 (9 : Stamp).toNat ∨ false ≠ s.fault.further) ∧
          (([0, 0, 0, 8] : List Byte) ≠ bytesOf 4 (9 : Stamp).toNat ∨ true ≠ s.fault.further)) ∧
      ([0] : List Byte) ≠ [] ∧ ([0, 0, 0, 0] : List Byte).length ≠ 5 ∧ 1 < (2 : Byte).toNat := by decide +kernel

theorem witness_SampleEventsPassSilenceOrGenerate :
    (let s := (sender ⟨.sending, some (.digit 1), some 1, none, none⟩ {}).mapUnit 2 fun u => { u with
          generation := some ⟨.forward .ft1, 1600, 0⟩ };
      (s.trunk 0).unit = some ⟨2, .sender⟩ ∧ (s.unit 2).generation = some ⟨.forward .ft1, 1600, 0⟩ ∧
        (s.unit 2).status = .signalling 0 .sender ∧ (s.unit 0).status = .free) ∧
      ∀ st ∈ [UnitStatus.measuring 0 1 0, .signalling 0 .sender, .signalling 0 .receiver], ∀ n ∈ [0, 158, 159],
        let s := (lab {}).mapUnit 0 fun u => { u with status := st, pos := n }
        (s.unit 0).status = st ∧ (s.unit 0).pos = n := by decide +kernel

theorem witness_FirstMatchingEntryDecides :
    ∃ applies matching possible : AnalysisEntry → Prop,
      (∀ e, applies e ↔ e.valid = true ∧ e.groups.getLsbD (1 : GroupNo).val = true) ∧
      (∀ e, matching e ↔ e.patternLength ≤ [(0 : Digit), 0].length ∧
        ∀ (k : Fin 6) (d x : Digit), k.val < e.patternLength → e.pattern.get k = some x →
          [(0 : Digit), 0][k.val]? = some d → x = d) ∧
      (∀ e, possible e ↔ [(0 : Digit), 0].length < e.patternLength ∧
        ∀ (k : Fin 6) (d x : Digit), e.pattern.get k = some x → [(0 : Digit), 0][k.val]? = some d → x = d) ∧
      (∀ o ∈ [AnalysisOutcome.fixed, .openNumber, .refuse], ∀ n ∈ [2, 3],
        applies (entry 2 [some 0, none] o n) ∧ matching (entry 2 [some 0, none] o n)) ∧
      possible (entry 2 [some 0, none, some 9] .refuse 1) ∧ ¬ matching (entry 2 [some 0, none, some 9] .refuse 1) :=
  ⟨_, _, _, fun _ => Iff.rfl, fun _ => Iff.rfl, fun _ => Iff.rfl, by decide +kernel⟩

theorem witness_RefusedCommandsChangeNothing :
    (0x19, Instr.queryTrunk) ∈ messageTypes ∧ Status.badState ≠ .ok ∧ Status.badState ≠ .okClamped := by
  refine ⟨?_, by decide, by decide⟩
  simp [messageTypes]

/-- A state in a call, with a command waiting. -/
def soundState : State :=
  { lab { called .outgoing .outSeizing .outgoing with sentCode := 0, timer := some ⟨.ack, 500⟩ } with
    pending := [.identify []] }

theorem witness_SoundnessIsKeptByEveryStep : soundState.sound ∧ ∃ u, step soundState = .next u := by
  refine ⟨⟨⟨by decide +kernel, ?_, ?_, by decide +kernel, by decide +kernel, by decide +kernel⟩, ?_, ?_, ?_, ?_, ?_, ?_⟩,
    after (.identify []) { soundState with pending := [] }, rfl⟩
  · simp [soundState, lab, State.reset, State.afterHardReset, State.afterReset, ReportQueue.afterReset]
  · simp [soundState, lab, State.reset, State.afterHardReset, State.afterReset, ReportQueue.afterReset, ReportEntry.sound]
  · have other : ∀ t, t ≠ 0 → soundState.trunk t = {} := by decide +kernel
    intro t
    by_cases h : t = 0
    · subst h
      refine ⟨fun _ => ⟨by decide +kernel, .fSeize, by decide +kernel⟩, fun k e => ?_⟩
      have e' : some (openCall .outgoing) = some k := e
      cases e'
      simp [CallRecord.sound, openCall, Config.durationMax]
    · rw [other t h]
      exact ⟨fun x => absurd rfl x, fun _ x => nomatch x⟩
  · unfold Trunk.bothWaySound; decide +kernel
  · intro g
    simp [soundState, lab, State.reset, State.afterHardReset, State.afterReset, Traffic.sound]
  · have all : ∀ n, (soundState.profiles.get n).codes.valid = true ∧
        (soundState.profiles.get n).clamped = soundState.profiles.get n := by decide +kernel
    exact all
  · intro k
    simp [soundState, lab, State.reset, State.afterHardReset, State.afterReset, AnalysisEntry.sound]
  · unfold Highway.sound; decide +kernel

end Sys2Proof.Tests
end

section
/-! PROOFS. The sound states: what a reset leaves is sound, and every command keeps soundness. -/

namespace Sys2Proof.Machine

/-! ### Loops over the trunks, and all trunk records at once -/

/-- The state with every trunk's record as given. -/
def State.withTrunks (s : State) (g : TrunkNo → Trunk) : State := { s with trunks := Vector.ofFn g }

@[simp] theorem State.withTrunks_pending (s : State) (g : TrunkNo → Trunk) : (s.withTrunks g).pending = s.pending := by
  dsimp only [State.withTrunks]
@[simp] theorem State.withTrunks_tmb (s : State) (g : TrunkNo → Trunk) : (s.withTrunks g).tmb = s.tmb := by
  dsimp only [State.withTrunks]
@[simp] theorem State.withTrunks_hwi (s : State) (g : TrunkNo → Trunk) : (s.withTrunks g).hwi = s.hwi := by
  dsimp only [State.withTrunks]
@[simp] theorem State.withTrunks_profiles (s : State) (g : TrunkNo → Trunk) : (s.withTrunks g).profiles = s.profiles := by
  dsimp only [State.withTrunks]
@[simp] theorem State.withTrunks_units (s : State) (g : TrunkNo → Trunk) : (s.withTrunks g).units = s.units := by
  dsimp only [State.withTrunks]
@[simp] theorem State.withTrunks_callQueue (s : State) (g : TrunkNo → Trunk) : (s.withTrunks g).callQueue = s.callQueue := by
  dsimp only [State.withTrunks]
@[simp] theorem State.withTrunks_testQueue (s : State) (g : TrunkNo → Trunk) : (s.withTrunks g).testQueue = s.testQueue := by
  dsimp only [State.withTrunks]
@[simp] theorem State.withTrunks_analysis (s : State) (g : TrunkNo → Trunk) : (s.withTrunks g).analysis = s.analysis := by
  dsimp only [State.withTrunks]
@[simp] theorem State.withTrunks_sequence (s : State) (g : TrunkNo → Trunk) : (s.withTrunks g).sequence = s.sequence := by
  dsimp only [State.withTrunks]
@[simp] theorem State.withTrunks_traffic (s : State) (g : TrunkNo → Trunk) : (s.withTrunks g).traffic = s.traffic := by
  dsimp only [State.withTrunks]
@[simp] theorem State.withTrunks_clk (s : State) (g : TrunkNo → Trunk) : (s.withTrunks g).clk = s.clk := by
  dsimp only [State.withTrunks]
@[simp] theorem State.withTrunks_rqa (s : State) (g : TrunkNo → Trunk) : (s.withTrunks g).rqa = s.rqa := by
  dsimp only [State.withTrunks]
@[simp] theorem State.withTrunks_fault (s : State) (g : TrunkNo → Trunk) : (s.withTrunks g).fault = s.fault := by
  dsimp only [State.withTrunks]
@[simp] theorem State.withTrunks_sgtx (s : State) (g : TrunkNo → Trunk) : (s.withTrunks g).sgtx = s.sgtx := by
  dsimp only [State.withTrunks]
@[simp] theorem State.withTrunks_ltx (s : State) (g : TrunkNo → Trunk) : (s.withTrunks g).ltx = s.ltx := by
  dsimp only [State.withTrunks]

@[simp] theorem State.withTrunks_unit (s : State) (g : TrunkNo → Trunk) (v : UnitNo) :
    (s.withTrunks g).unit v = s.unit v := State.unit_congr (s.withTrunks_units g) v

@[simp] theorem State.withTrunks_trunk (s : State) (g : TrunkNo → Trunk) (t : TrunkNo) :
    (s.withTrunks g).trunk t = g t := by
  simp [State.trunk, State.withTrunks, Vector.get_eq_getElem]

/-- Two states are equal when they agree in all but the trunk records, and in each of those. -/
theorem State.withTrunks_eq_of_trunk {s u : State} {g : TrunkNo → Trunk} (h : { u with trunks := s.trunks } = s)
    (ht : ∀ t, u.trunk t = g t) : u = s.withTrunks g := by
  have e : u.trunks = Vector.ofFn g := Vector.ext fun i hi => by
    rw [Vector.getElem_ofFn]; exact ht ⟨i, hi⟩
  unfold State.withTrunks
  rw [← h, ← e]

theorem State.withTrunks_trunk_self (s : State) : s.withTrunks s.trunk = s :=
  (State.withTrunks_eq_of_trunk rfl fun _ => rfl).symm

theorem State.withTrunks_mapTrunk (s : State) (g : TrunkNo → Trunk) (t : TrunkNo) (f : Trunk → Trunk) :
    (s.withTrunks g).mapTrunk t f = s.withTrunks fun k => if k = t then f (g k) else g k := by
  refine State.withTrunks_eq_of_trunk ?_ fun k => ?_
  · unfold State.mapTrunk State.withTrunks
    generalize Vector.ofFn g = v
    rfl
  · rw [State.mapTrunk_trunk_at, State.withTrunks_trunk, State.withTrunks_trunk]
    split_ifs with h
    · rw [h]
    · rfl

/-- A loop whose turn for a trunk changes that trunk's record alone, whatever the other records are, changes every
record by its own turn. -/
theorem State.forTrunks_eq_withTrunks (s : State) (f : State → TrunkNo → State) (g : TrunkNo → Trunk → Trunk)
    (hf : ∀ (r : TrunkNo → Trunk) (t : TrunkNo), r t = s.trunk t →
      f (s.withTrunks r) t = (s.withTrunks r).mapTrunk t (g t)) :
    s.forTrunks f = s.withTrunks fun t => g t (s.trunk t) := by
  have turns : ∀ (l : List TrunkNo) (r : TrunkNo → Trunk), l.Nodup → (∀ t ∈ l, r t = s.trunk t) →
      l.foldl f (s.withTrunks r) = s.withTrunks fun t => if t ∈ l then g t (r t) else r t := by
    intro l
    induction l with
    | nil => intro r _ _; simp
    | cons x l ih =>
      intro r hl hr
      obtain ⟨hx, hl⟩ := List.nodup_cons.mp hl
      rw [List.foldl_cons, hf r x (hr x (by simp)), State.withTrunks_mapTrunk, ih _ hl fun t ht => ?_]
      · congr 1
        funext t
        by_cases h : t = x
        · subst h; simp [hx]
        · simp [h]
      · rw [if_neg fun e => hx (by rw [← e]; exact ht), hr t (by simp [ht])]
  have h := turns (List.finRange 32) s.trunk (List.nodup_finRange 32) fun _ _ => rfl
  rw [State.withTrunks_trunk_self] at h
  simpa [State.forTrunks] using h

/-! ### Soundness of parts -/

/-- An inner operation keeps the unit sound. -/
theorem Inner.keeps_sound {s u : State} (i : Inner s u) (h : s.sound) : u.sound where
  reports := i.reports.sound h.reports
  trunks t := by rw [i.profiles]; exact (i.trunks t).sound (h.trunks t)
  bothWay t := by
    obtain ⟨hrole, hprofile, -⟩ := (i.trunks t).kept
    unfold Trunk.bothWaySound
    rw [i.profiles, hrole, hprofile]
    exact h.bothWay t
  traffic g := (i.traffic g (h.traffic g)).1
  profiles n := by rw [i.profiles]; exact h.profiles n
  analysis k := by rw [i.analysis]; exact h.analysis k
  highway := by rw [i.hwi]; exact h.highway

/-- Two records of a trunk agree in all that soundness speaks of. -/
def Trunk.SameSignalling (r r' : Trunk) : Prop :=
  r'.role = r.role ∧ r'.profile = r.profile ∧ r'.state = r.state ∧ r'.sentCode = r.sentCode ∧ r'.record = r.record

theorem Trunk.SameSignalling.sound {p : Vector Profile 4} {r r' : Trunk} (e : r.SameSignalling r') (h : r.sound p) :
    r'.sound p := by
  obtain ⟨hrole, hprofile, hstate, hcode, hrecord⟩ := e
  unfold Trunk.sound Trunk.sendsLegal
  rw [hrole, hprofile, hstate, hcode, hrecord]
  exact h

theorem Trunk.SameSignalling.bothWaySound {p : Vector Profile 4} {r r' : Trunk} (e : r.SameSignalling r')
    (h : r.bothWaySound p) : r'.bothWaySound p := by
  unfold Trunk.bothWaySound
  rw [e.1, e.2.1]
  exact h

/-- New trunk records, call queue, test queue, units, time base or link, that leave all that soundness speaks of but
for the highway interface. -/
theorem State.sound.of_same {s u : State} (h : s.sound) (hq : u.rqa = s.rqa) (hp : u.profiles = s.profiles)
    (ha : u.analysis = s.analysis) (hg : u.traffic = s.traffic) (hh : u.hwi.sound)
    (ht : ∀ t, (s.trunk t).SameSignalling (u.trunk t)) : u.sound where
  reports := hq ▸ h.reports
  trunks t := hp ▸ (ht t).sound (h.trunks t)
  bothWay t := hp ▸ (ht t).bothWaySound (h.bothWay t)
  traffic g := hg ▸ h.traffic g
  profiles n := hp ▸ h.profiles n
  analysis k := ha ▸ h.analysis k
  highway := hh

theorem State.sound.withHighway {s : State} (h : s.sound) {x : Highway} (hx : x.sound) :
    ({ s with hwi := x } : State).sound :=
  ⟨h.reports, h.trunks, h.bothWay, h.traffic, h.profiles, h.analysis, hx⟩

theorem State.sound.withTimeBase {s : State} (h : s.sound) (x : TimeBase) : ({ s with tmb := x } : State).sound :=
  ⟨h.reports, h.trunks, h.bothWay, h.traffic, h.profiles, h.analysis, h.highway⟩

theorem State.sound.withLink {s : State} (h : s.sound) (x : ControlLink) : ({ s with clk := x } : State).sound :=
  ⟨h.reports, h.trunks, h.bothWay, h.traffic, h.profiles, h.analysis, h.highway⟩

theorem State.sound.withFault {s : State} (h : s.sound) (x : FaultRecord) : ({ s with fault := x } : State).sound :=
  ⟨h.reports, h.trunks, h.bothWay, h.traffic, h.profiles, h.analysis, h.highway⟩

theorem State.sound.withPending {s : State} (h : s.sound) (q : List Instr) : (s.withPending q).sound :=
  ⟨h.reports, h.trunks, h.bothWay, h.traffic, h.profiles, h.analysis, h.highway⟩

theorem State.sound.withReports {s : State} (h : s.sound) {q : ReportQueue} (hq : q.judged.sound) :
    (s.withReports q).sound :=
  ⟨hq, h.trunks, h.bothWay, h.traffic, h.profiles, h.analysis, h.highway⟩

theorem State.sound.withTraffic {s : State} (h : s.sound) {x : Vector Traffic 8} (hx : ∀ g, (x.get g).sound) :
    ({ s with traffic := x } : State).sound :=
  ⟨h.reports, h.trunks, h.bothWay, hx, h.profiles, h.analysis, h.highway⟩

theorem State.sound.withAnalysis {s : State} (h : s.sound) {x : Vector AnalysisEntry 32} (hx : ∀ k, (x.get k).sound) :
    ({ s with analysis := x } : State).sound :=
  ⟨h.reports, h.trunks, h.bothWay, h.traffic, h.profiles, hx, h.highway⟩

theorem State.sound.sendReply {s : State} (h : s.sound) (x : Byte) (st : Status) (d : List Byte) :
    (s.sendReply x st d).sound := h.withLink _

/-- A loop over the trunks keeps the unit sound where each turn does. -/
theorem State.sound.forTrunks {s : State} {f : State → TrunkNo → State} (hf : ∀ x t, x.sound → (f x t).sound)
    (h : s.sound) : (s.forTrunks f).sound := by
  unfold State.forTrunks
  generalize List.finRange 32 = l
  induction l generalizing s with
  | nil => exact h
  | cons t l ih => exact ih (hf s t h)

/-! ### Resets -/

theorem Profile.default_sound : ({} : Profile).sound := ⟨by decide, by decide⟩

theorem ReportQueue.afterReset_sound (cause : ResetCause) (time : Stamp) (address : BitVec 5) (valid : Bool) :
    (ReportQueue.afterReset cause time address valid).sound := by
  refine ⟨?_, ?_, ?_, ?_, ?_, ?_⟩ <;>
    simp [ReportQueue.afterReset, Config.reportRoom, ReportEntry.sound, ReportQueue.wantsAttention]

theorem State.afterReset_sound (cause : ResetCause) (tmb : TimeBase) (clk : ControlLink) (sgtx : Option SigFrame)
    (ltx : Option (Vector Byte 32)) (pending : List Instr) :
    (State.afterReset cause tmb clk sgtx ltx pending).sound where
  reports := ReportQueue.afterReset_sound _ _ _ _
  trunks t := by
    have e : (State.afterReset cause tmb clk sgtx ltx pending).trunk t = {} := get_replicate _ t
    rw [e]
    exact ⟨fun h => absurd rfl h, fun _ h => by cases h⟩
  bothWay t := by
    have e : (State.afterReset cause tmb clk sgtx ltx pending).trunk t = {} := get_replicate _ t
    rw [e]
    exact fun h => by cases h
  traffic g := by
    rw [show (State.afterReset cause tmb clk sgtx ltx pending).traffic.get g = {} from get_replicate _ g]
    simp [Traffic.sound]
  profiles n := by
    rw [show (State.afterReset cause tmb clk sgtx ltx pending).profiles.get n = {} from get_replicate _ n]
    exact Profile.default_sound
  analysis k := by
    rw [show (State.afterReset cause tmb clk sgtx ltx pending).analysis.get k = {} from get_replicate _ k]
    simp [AnalysisEntry.sound]
  highway := by simp [State.afterReset, Highway.sound]

/-- Settles O57: State.reset is what a hard reset leaves. -/
theorem resetStateIsSound : Obligations.ResetStateIsSound := by
  unfold Obligations.ResetStateIsSound
  exact State.afterReset_sound _ _ _ _ _ _

/-! ### Frame sync and the alignment -/

theorem State.startHold_sound {s : State} (cause : HoldCause) (h : s.sound) (ha : s.hwi.alignment = .aligned) :
    (s.startHold cause).sound := by
  obtain ⟨-, -, -, -, low, high, trial⟩ := h.highway
  have hx : ({ s.hwi with
      alignment := .hold, correct := 0, wrong := 0, holdStart := some s.tmb.counter
      holdTimer := some { spent := 0, left := 100 * s.hwi.holdLimit } } : Highway).sound :=
    ⟨by simp, by simp, by simp, by simp, low, high, fun e => by rw [trial e] at ha; cases ha⟩
  have h1 := ((State.submit_inner _ none (.holdStart cause)).trans
    (State.capture_inner _ .holdStart none)).keeps_sound (h.withHighway hx)
  unfold State.startHold State.tellHoldStart
  refine (State.abortMeasurements_inner _).keeps_sound (h1.of_same rfl rfl rfl rfl h1.highway fun t => ?_)
  rw [State.trunk, State.trunk, get_map]
  exact ⟨rfl, rfl, rfl, rfl, rfl⟩

theorem State.takeCode_sound {s : State} (t : TrunkNo) (code : LineCode) (h : s.sound) : (s.takeCode t code).sound := by
  have received : ∀ f : Trunk → LineReceiver, (s.mapTrunk t fun r => { r with lcr := f r }).sound := by
    refine fun f => h.of_same rfl rfl rfl rfl h.highway fun u => ?_
    rw [State.mapTrunk_trunk_at]
    split_ifs with e
    · rw [e]; exact ⟨rfl, rfl, rfl, rfl, rfl⟩
    · exact ⟨rfl, rfl, rfl, rfl, rfl⟩
  unfold State.takeCode
  dsimp only
  split_ifs
  · exact h
  · exact (State.decodeLine_inner _ t).keeps_sound (received _)
  · exact received _

theorem State.takeFrame_sound {s : State} (f : SigFrame) (h : s.sound) : (s.takeFrame f).sound :=
  h.forTrunks fun _ t hx => State.takeCode_sound t _ hx

theorem State.endHold_sound {s : State} (h : s.sound) (ha : s.hwi.alignment = .hold) : s.endHold.sound := by
  obtain ⟨-, -, -, -, low, high, trial⟩ := h.highway
  have hx : ({ s.hwi with
      alignment := .aligned, correct := 0, wrong := 0, holdStart := none, holdTimer := none } : Highway).sound :=
    ⟨by simp, by simp, by simp, by simp, low, high, fun e => by rw [trial e] at ha; cases ha⟩
  unfold State.endHold State.tellHoldEnd
  exact (((State.submit_inner _ none _).trans (State.forTrunks_inner _ _ State.decadicHoldEnd_inner)).trans
    (State.serveTests_inner _)).keeps_sound (h.withHighway hx)

theorem State.hitHoldLimit_sound {s : State} (h : s.sound) : s.hitHoldLimit.sound := by
  have h1 := (State.capture_inner s .holdLimit none).keeps_sound h
  obtain ⟨-, -, -, -, low, high, -⟩ := h1.highway
  unfold State.hitHoldLimit
  refine ((State.forTrunks_inner _ _ State.failByHoldLimit_inner).trans (State.serveTests_inner _)).keeps_sound
    (h1.of_same rfl rfl rfl rfl ⟨by simp, by simp, by simp, by simp, low, high, by simp⟩ fun t => ?_)
  rw [State.trunk, State.trunk, get_map]
  exact ⟨rfl, rfl, rfl, rfl, rfl⟩

end Sys2Proof.Machine
end

section
/-! PROOFS. Every command keeps soundness. -/

namespace Sys2Proof.Machine

/-! ### The answers of the events -/

/-- The state that a command answers, where it answers one, is sound. -/
def SoundAnswer (a : Answer) : Prop := ∀ u, a = .next u → u.sound

theorem soundAnswer_next {s : State} (h : s.sound) : SoundAnswer (.next s) := fun _ e => by cases e; exact h

/-- A command that is carried out where it is due and otherwise leaves the state as it is. -/
theorem State.sound.ite {s u : State} {P : Prop} [Decidable P] (h : s.sound) (hu : P → u.sound) :
    (if P then u else s).sound := by
  split_ifs with hP
  · exact hu hP
  · exact h

theorem execFsLoss_sound {s : State} (h : s.sound) : SoundAnswer (execFsLoss s) := by
  obtain ⟨timer, start, correct, wrong, low, high, trial⟩ := h.highway
  have hx := h.withTimeBase { s.tmb with fsPresent := false, source := .crystal }
  unfold execFsLoss
  split_ifs
  · refine soundAnswer_next ?_
    unfold State.alignmentFsLoss
    split
    · rename_i ha
      exact State.startHold_sound _ hx ha
    · exact hx.withHighway ⟨timer, start, by simp, wrong, low, high, by simp⟩
    · exact hx.withHighway ⟨timer, start, by simp, wrong, low, high, trial⟩
  · exact soundAnswer_next h

theorem execHuntAlignmentWord_sound {s : State} (f : SigFrame) (h : s.sound) :
    SoundAnswer (execHuntAlignmentWord f s) := by
  obtain ⟨timer, start, correct, wrong, low, high, trial⟩ := h.highway
  unfold execHuntAlignmentWord
  split_ifs with hs hw ht hr
  · rw [hs.1] at timer start
    exact soundAnswer_next (State.takeFrame_sound f (h.withHighway
      ⟨by simpa using timer, by simpa using start, by simp, by simp, low, high, by simp⟩))
  · have hc : s.hwi.correct + 1 < 3 := by
      by_contra hc
      exact ht ⟨hr, by omega⟩
    exact soundAnswer_next (h.withHighway ⟨timer, start, hc, wrong, low, high, fun _ => hs.1⟩)
  · exact soundAnswer_next (h.withHighway ⟨timer, start, by simp, wrong, low, high, fun _ => hs.1⟩)
  · exact soundAnswer_next (h.withHighway ⟨timer, start, by simp, wrong, low, high, by simp⟩)
  · exact soundAnswer_next h

theorem execReceivedFrameEvent_sound {s : State} (f : SigFrame) (h : s.sound) :
    SoundAnswer (execReceivedFrameEvent f s) := by
  obtain ⟨timer, start, correct, wrong, low, high, trial⟩ := h.highway
  unfold execReceivedFrameEvent
  split_ifs with ha hw hn
  · exact soundAnswer_next (State.takeFrame_sound f (h.withHighway ⟨timer, start, correct, by simp, low, high, trial⟩))
  · exact soundAnswer_next (h.withHighway ⟨timer, start, correct, hn, low, high, trial⟩)
  · exact soundAnswer_next (State.startHold_sound _ h ha.1)
  · exact soundAnswer_next h

theorem execHoldAlignmentWord_sound {s : State} (f : SigFrame) (h : s.sound) :
    SoundAnswer (execHoldAlignmentWord f s) := by
  obtain ⟨timer, start, correct, wrong, low, high, trial⟩ := h.highway
  unfold execHoldAlignmentWord
  split_ifs with ha hw hn
  · exact soundAnswer_next (h.withHighway ⟨timer, start, hn, wrong, low, high, trial⟩)
  · exact soundAnswer_next (State.takeFrame_sound f (State.endHold_sound h ha.1))
  · exact soundAnswer_next (h.withHighway ⟨timer, start, by simp, wrong, low, high, trial⟩)
  · exact soundAnswer_next h

/-! ### The millisecond event and the duration tick -/

/-- Ageing the reports changes neither their kinds nor their trunks. -/
theorem ReportQueue.tick_judged_sound {q : ReportQueue} (h : q.sound) : q.tick.judged.sound := by
  obtain ⟨room, apart, entries, -, low, high⟩ := h
  refine ⟨by simpa [ReportQueue.tick] using room, ReportQueue.pairwise_map _ (fun _ _ => rfl) apart, ?_, rfl, low, high⟩
  simp only [ReportQueue.judged_entries, ReportQueue.tick, List.mem_map]
  rintro _ ⟨e, he, rfl⟩
  exact entries e he

theorem Highway.tick_sound {h : Highway} (k : h.sound) : h.tick.sound := by
  obtain ⟨timer, start, correct, wrong, low, high, trial⟩ := k
  exact ⟨by simpa [Highway.tick] using timer, start, correct, wrong, low, high, trial⟩

theorem State.tickTimers_sound {s : State} (h : s.sound) : s.tickTimers.sound := by
  refine h.of_same rfl rfl rfl rfl h.highway fun t => ?_
  rw [State.trunk, State.trunk, State.tickTimers, get_map]
  exact ⟨rfl, rfl, rfl, rfl, rfl⟩

theorem execMillisecondEvent_sound {s : State} (h : s.sound) : SoundAnswer (execMillisecondEvent s) := by
  have hx : (if s.inHold then s else s.tickTimers).sound := by
    split_ifs
    · exact h
    · exact State.tickTimers_sound h
  unfold execMillisecondEvent
  generalize (if s.inHold then s else s.tickTimers) = x at hx
  exact soundAnswer_next (((hx.withTimeBase x.tmb.tick).withHighway (Highway.tick_sound hx.highway)).withReports
    (ReportQueue.tick_judged_sound hx.reports))

/-- R173: both durations stop at the same highest value, so conversation stays below occupancy. -/
theorem CallRecord.tick_sound (b : Bool) {k : CallRecord} (h : k.sound) : (k.tick b).sound := by
  obtain ⟨le, max, answers⟩ := h
  refine ⟨?_, ?_, answers⟩
  · simp only [CallRecord.tick]
    split_ifs <;> omega
  · simp only [CallRecord.tick]; omega

theorem Traffic.addOccupancy_inner (c : Traffic) : c.Inner { c with occupancy := countUp c.occupancy 1 } :=
  fun ⟨h1, h2, h3, h4, h5, h6⟩ =>
    ⟨⟨h1, h2, h3, h4, h5, countUp_le _ _⟩, le_rfl, le_rfl, le_rfl, le_rfl, le_rfl, le_countUp h6⟩

theorem State.tickRecord_inner (s : State) (t : TrunkNo) : Inner s (s.tickRecord t) := by
  unfold State.tickRecord
  split_ifs
  · exact (s.mapRecord_inner t _ fun _ => CallRecord.tick_sound _).trans
      (State.countFor_inner _ t _ Traffic.addOccupancy_inner)
  · exact .refl s

theorem execDurationTick_sound {s : State} (h : s.sound) : SoundAnswer (execDurationTick s) := by
  unfold execDurationTick
  split_ifs
  · exact soundAnswer_next ((State.forTrunks_inner _ _ State.tickRecord_inner).keeps_sound (h.withTimeBase _))
  · exact soundAnswer_next h

/-! ### The other events -/

theorem State.digitEndExpired_inner (s : State) (t : TrunkNo) (c : DecadicReceiver) : Inner s (s.digitEndExpired t c) := by
  unfold State.digitEndExpired
  split
  · exact s.endDigit_inner t c
  · exact s.endRejected_inner t
  · exact .refl s

theorem State.callWaitEnded_inner (s : State) (e : CallWait) : Inner s (s.callWaitEnded e) := by
  unfold State.callWaitEnded
  split
  · exact (s.leaveQueue_inner _).trans (State.outOutcome_inner _ _ _)
  · exact (s.leaveQueue_inner _).trans (State.rejectIn_inner _ _ _)

theorem State.testWaitEnded_inner (s : State) (t : TrunkNo) : Inner s (s.testWaitEnded t) :=
  (s.withTestQueue_inner _).trans (State.submit_inner _ _ _)

/-- An expiry that is carried out where it is due and otherwise leaves the state as it is. -/
theorem Inner.ite {s u : State} {P : Prop} [Decidable P] (i : Inner s u) : Inner s (if P then u else s) := by
  split_ifs
  · exact i
  · exact .refl s

/-- A command that answers an inner state. -/
theorem Inner.soundAnswer {s u : State} (i : Inner s u) (h : s.sound) : SoundAnswer (.next u) :=
  soundAnswer_next (i.keeps_sound h)

/-! ### The payloads of the settings commands -/

theorem check_bind_ok {α : Type} {b : Bool} {st : Status} {k : Unit → Judged α} {x : α} :
    (check b st >>= k) = .ok x ↔ b = true ∧ k () = .ok x := by
  cases b <;> simp [check, bind, Except.bind]

theorem fieldOf_bind_ok {α β : Type} {o : Option β} {k : β → Judged α} {x : α} :
    (fieldOf o >>= k) = .ok x ↔ ∃ y, o = some y ∧ k y = .ok x := by
  cases o <;> simp [fieldOf, bind, Except.bind]

/-- R26: what a SET-PROFILE has passed. -/
theorem State.judgeSetProfile_ok {s : State} {p : List Byte} {n : ProfileNo} {q : Profile}
    (h : s.judgeSetProfile p = .ok (n, q)) : q.codes.valid = true ∧
      ((∃ t, (s.trunk t).names n = true ∧ (s.trunk t).role = .bothWay) → q.codes.validBothWay = true) := by
  simp only [State.judgeSetProfile, check_bind_ok, fieldOf_bind_ok] at h
  obtain ⟨-, m, -, r, -, valid, bothWay, -, e⟩ := h
  cases e
  refine ⟨valid, ?_⟩
  rintro ⟨t, names, role⟩
  have hm : s.trunk t ∈ s.trunks.toList := by simp [State.trunk, Vector.get_eq_getElem]
  have : (s.trunks.toList.any fun r => r.names n && r.role == .bothWay) = true :=
    List.any_eq_true.mpr ⟨_, hm, by simp [names, role]⟩
  simpa [this] using bothWay

/-- R31: what a SET-TRUNK has passed. -/
theorem State.judgeSetTrunk_ok {s : State} {p : List Byte} {c : TrunkSetting} (h : s.judgeSetTrunk p = .ok c) :
    c.role = .bothWay → (s.profiles.get c.profile).codes.validBothWay = true := by
  simp only [State.judgeSetTrunk, check_bind_ok, fieldOf_bind_ok] at h
  obtain ⟨-, t, -, role, -, n, -, g, -, glare, -, bothWay, -, -, e⟩ := h
  cases e
  intro hr
  dsimp only at hr
  simpa [hr] using bothWay

/-- R153: what a SET-ANALYSIS has passed. -/
theorem readAnalysis_sound {p : List Byte} {e : AnalysisEntry} (h : readAnalysis p = some e) : e.sound := by
  simp only [readAnalysis, Option.bind_eq_bind, Option.bind_eq_some_iff] at h
  obtain ⟨_, -, _, -, _, -, _, -, _, -, _, -, _, -, _, -, h⟩ := h
  split_ifs at h with hr
  cases h
  simpa [AnalysisEntry.sound, and_assoc] using hr

theorem judgeSetAnalysis_ok {p : List Byte} {k : Fin 32} {e : AnalysisEntry} (h : judgeSetAnalysis p = .ok (k, e)) :
    e.sound := by
  simp only [judgeSetAnalysis, check_bind_ok, fieldOf_bind_ok] at h
  obtain ⟨-, _, -, r, hr, x⟩ := h
  cases x
  exact readAnalysis_sound hr

/-! ### SET-PROFILE -/

theorem Profile.numbers_withNumbers (p : Profile) {ns : List Nat} (h : ns.length = 25) :
    (p.withNumbers ns).numbers = ns := by
  have e : (p.withNumbers ns).numbers = (List.range 25).map fun k => ns.getD k 0 := rfl
  rw [e]
  refine List.ext_getElem (by simp [h]) fun i h1 h2 => ?_
  simp [List.getD_eq_getElem?_getD, List.getElem?_eq_getElem h2]

theorem Profile.withNumbers_withNumbers (p : Profile) (ns ms : List Nat) :
    (p.withNumbers ns).withNumbers ms = p.withNumbers ms := rfl

theorem NumericRow.clamp_clamp (r : NumericRow) (h : r.low ≤ r.high) (n : Nat) : r.clamp (r.clamp n) = r.clamp n := by
  simp only [NumericRow.clamp]; omega

theorem clampNumbers_idem {rows : List NumericRow} (h : ∀ r ∈ rows, r.low ≤ r.high) (ns : List Nat) :
    clampNumbers rows (clampNumbers rows ns) = clampNumbers rows ns := by
  unfold clampNumbers
  induction rows generalizing ns with
  | nil => rfl
  | cons r rows ih =>
    cases ns with
    | nil => rfl
    | cons n ns =>
      simp only [List.zipWith_cons_cons, r.clamp_clamp (h r (by simp)), ih (fun x hx => h x (by simp [hx])) ns]

/-- R25: a clamped profile is within its ranges. -/
theorem Profile.clamped_clamped (p : Profile) : p.clamped.clamped = p.clamped := by
  have len : (clampNumbers numericRows p.numbers).length = 25 := by simp [clampNumbers, Profile.numbers, numericRows]
  have ranges : ∀ r ∈ numericRows, r.low ≤ r.high := by decide
  unfold Profile.clamped
  rw [Profile.numbers_withNumbers _ len, clampNumbers_idem ranges, Profile.withNumbers_withNumbers]

/-- R27: a stored profile's trunks after their sent codes have been set. -/
theorem State.resendCodes_eq (s : State) (n : ProfileNo) :
    (s.forTrunks fun s t => if (s.trunk t).names n then s.resendCode t else s) =
      s.withTrunks fun t => if (s.trunk t).names n then
        { s.trunk t with
          sentCode := sentCodeOf (s.profiles.get (s.trunk t).profile).codes (s.trunk t).role (s.trunk t).state }
        else s.trunk t := by
  refine s.forTrunks_eq_withTrunks _ (fun _ r => if r.names n then
    { r with sentCode := sentCodeOf (s.profiles.get r.profile).codes r.role r.state } else r) fun r t _ => ?_
  by_cases h : ((s.withTrunks r).trunk t).names n = true
  · rw [if_pos h]
    refine State.mapTrunk_congr _ _ ?_
    rw [if_pos h]
    simp only [State.profileOf, State.withTrunks_profiles]
  · rw [if_neg h, State.withTrunks_mapTrunk]
    congr 1
    funext k
    split_ifs with e h1
    · subst e; exact absurd (by simpa using h1) h
    · rfl
    · rfl

theorem Trunk.names_iff (r : Trunk) (n : ProfileNo) : r.names n = true ↔ r.role ≠ .unequipped ∧ r.profile = n := by
  simp [Trunk.names]

/-- R25 to R27: a profile that has passed the judgement of SET-PROFILE is taken into use. -/
theorem State.useProfile_sound {s : State} {n : ProfileNo} {q : Profile} (h : s.sound) (valid : q.codes.valid = true)
    (bothWay : (∃ t, (s.trunk t).names n = true ∧ (s.trunk t).role = .bothWay) → q.codes.validBothWay = true) :
    ((s.storeProfile n q).useProfile n).sound := by
  unfold State.useProfile
  refine (State.forTrunks_inner _ _ fun x t => (x.decodeLine_inner t).ite).keeps_sound ?_
  have profile : ∀ m, (s.storeProfile n q).profiles.get m = if n = m then q.clamped else s.profiles.get m :=
    fun m => get_set _ _ _ _
  have trunk : ∀ t, (s.storeProfile n q).trunk t = s.trunk t := fun t => State.trunk_congr rfl t
  rw [State.resendCodes_eq]
  refine ⟨?_, fun t => ?_, fun t => ?_, ?_, fun m => ?_, ?_, ?_⟩
  · rw [State.withTrunks_rqa]; exact h.reports
  · rw [State.withTrunks_trunk, State.withTrunks_profiles, trunk]
    obtain ⟨legal, record⟩ := h.trunks t
    split_ifs with named
    · exact ⟨fun equipped => ⟨(legal equipped).1, sentCodeOf_legal _ _ (legal equipped).1⟩, record⟩
    · refine ⟨fun equipped => ?_, record⟩
      rw [Trunk.names_iff, not_and] at named
      rw [profile, if_neg (Ne.symm (named equipped))]
      exact legal equipped
  · rw [State.withTrunks_trunk, State.withTrunks_profiles, trunk]
    have passed : (s.trunk t).bothWaySound (s.storeProfile n q).profiles := by
      intro role
      rw [profile]
      split_ifs with e
      · exact bothWay ⟨t, (Trunk.names_iff _ _).mpr ⟨by simp [role], e.symm⟩, role⟩
      · exact h.bothWay t role
    split_ifs
    · exact passed
    · exact passed
  · rw [State.withTrunks_traffic]; exact h.traffic
  · rw [State.withTrunks_profiles, profile]
    split_ifs
    · exact ⟨valid, q.clamped_clamped⟩
    · exact h.profiles m
  · rw [State.withTrunks_analysis]; exact h.analysis
  · rw [State.withTrunks_hwi]; exact h.highway

end Sys2Proof.Machine
end

section
/-! PROOFS. Every host command and every judged frame keeps soundness, and so every step does. -/

namespace Sys2Proof.Machine

/-! ### The settings commands -/

/-- A command of the host that keeps the unit sound, whatever its payload. -/
def KeepsSound (take : State → List Byte → State) : Prop := ∀ s p, s.sound → (take s p).sound

theorem State.takeSetProfile_sound : KeepsSound State.takeSetProfile := fun s p h => by
  unfold State.takeSetProfile
  split
  · exact h.sendReply _ _ _
  · rename_i n q ok
    obtain ⟨valid, bothWay⟩ := State.judgeSetProfile_ok ok
    exact (State.useProfile_sound h valid bothWay).sendReply _ _ _

theorem State.takeGetProfile_sound : KeepsSound State.takeGetProfile := fun s p h => by
  unfold State.takeGetProfile
  split <;> exact h.sendReply _ _ _

/-- R32: a trunk that enters a state with its new configuration sends a code of its profile again. -/
theorem State.configure_enter_sound {s : State} {c : TrunkSetting} {st : TrunkState} (h : s.sound)
    (bothWay : c.role = .bothWay → (s.profiles.get c.profile).codes.validBothWay = true)
    (equipped : c.role ≠ .unequipped → st ≠ .unequipped) : ((s.configure c).enter c.trunk st).sound := by
  have trunk : ∀ t, ((s.configure c).enter c.trunk st).trunk t =
      if t = c.trunk then { s.trunk c.trunk with
        role := c.role, profile := c.profile, group := c.group, glare := c.glare
        remoteBlock := false, cause := none, lcr := {}, state := st
        sentCode := sentCodeOf (s.profiles.get c.profile).codes c.role st } else s.trunk t := by
    intro t
    rw [State.enter_trunk]
    simp only [State.configure, State.profileOf, State.mapTrunk_trunk, State.mapTrunk_profiles, State.mapTrunk_trunk_at]
    split_ifs <;> rfl
  refine ⟨h.reports, fun t => ?_, fun t => ?_, h.traffic, h.profiles, h.analysis, h.highway⟩
  · rw [trunk]
    split_ifs
    · exact ⟨fun e => ⟨equipped e, sentCodeOf_legal _ _ (equipped e)⟩, (h.trunks c.trunk).2⟩
    · exact h.trunks t
  · rw [trunk]
    split_ifs
    · exact bothWay
    · exact h.bothWay t

theorem State.takeSetTrunk_sound : KeepsSound State.takeSetTrunk := fun s p h => by
  unfold State.takeSetTrunk
  split
  · exact h.sendReply _ _ _
  · rename_i c ok
    have bothWay := State.judgeSetTrunk_ok ok
    have role : ((s.configure c).trunk c.trunk).role = c.role := by simp [State.configure]
    refine State.sound.sendReply ?_ _ _ _
    unfold State.enterConfigured
    rw [role]
    split_ifs with e
    · exact State.configure_enter_sound h bothWay fun n => absurd e n
    · unfold State.enterIdle
      split_ifs
      · exact State.configure_enter_sound h bothWay fun _ => by decide
      · exact (State.decodeIdle_inner _ _).keeps_sound (State.configure_enter_sound h bothWay fun _ => by decide)

theorem State.takeSetAnalysis_sound : KeepsSound State.takeSetAnalysis := fun s p h => by
  unfold State.takeSetAnalysis
  split
  · exact h.sendReply _ _ _
  · rename_i k e ok
    refine (h.withAnalysis fun j => ?_).sendReply _ _ _
    rw [get_set]
    split_ifs
    · exact judgeSetAnalysis_ok ok
    · exact h.analysis j

theorem State.takeGetAnalysis_sound : KeepsSound State.takeGetAnalysis := fun s p h => by
  unfold State.takeGetAnalysis
  split <;> exact h.sendReply _ _ _

theorem byteAt_lt (p : List Byte) (k : Nat) : byteAt p k < 256 := (p.getD k 0).isLt

/-- R12: a hold limit timer runs under the new limit where it ran under the old one. -/
theorem Highway.setLimit_sound {h : Highway} {limit : Nat} (k : h.sound) (low : 1 ≤ limit) (high : limit ≤ 255) :
    (h.setLimit limit).sound := by
  obtain ⟨timer, start, correct, wrong, -, -, trial⟩ := k
  refine ⟨?_, start, correct, wrong, low, high, trial⟩
  unfold Highway.setLimit
  dsimp only
  rw [← timer]
  split_ifs <;> simp

theorem State.takeSetReporting_sound : KeepsSound State.takeSetReporting := fun s p h => by
  unfold State.takeSetReporting
  split_ifs
  · have hb := byteAt_lt p 2
    obtain ⟨room, apart, entries, -, -, -⟩ := h.reports
    refine State.sound.sendReply ?_ _ _ _
    exact (h.withHighway (Highway.setLimit_sound h.highway (by omega) (by omega))).withReports
      ⟨room, apart, entries, rfl, le_min (by decide) (le_max_left _ _), min_le_left _ _⟩
  · exact h.sendReply _ _ _

/-! ### The commands on a trunk -/

/-- A command that is refused, or carried out with an inner effect and answered. -/
theorem Inner.answered {s u : State} (i : Inner s u) (h : s.sound) (x : Byte) (st : Status) (d : List Byte) :
    (u.sendReply x st d).sound := (i.keeps_sound h).sendReply x st d

theorem State.startCall_inner (s : State) (f : SeizeFields) : Inner s (s.startCall f) :=
  ((((s.mapTrunk_inner _ _ (.of_same rfl rfl rfl rfl rfl ⟨rfl, rfl⟩ rfl rfl rfl)).trans
    (State.openRecord_inner _ _ _ _ _)).trans (State.countFor_inner _ _ _ Traffic.addAttempt_inner)).trans
    (State.enter_inner _ _ (by decide))).trans (State.startTimer_inner _ _ _ _)

theorem State.makeLink_inner (s : State) (outlet : TrunkNo) (q : RelayRequest) : Inner s (s.makeLink outlet q) := by
  have linked : ∀ (x : State) (t : TrunkNo) (k : Option LinkEnd) (r : Option LinkRecord) (y : SendStore),
      Inner x (x.mapTrunk t fun z => { z with link := k, linkRecord := r, send := y }) :=
    fun x t k r y => x.mapTrunk_inner t _ (.of_same rfl rfl rfl rfl rfl ⟨rfl, rfl⟩ rfl rfl rfl)
  have h := (s.mapTrunk_inner q.inlet (fun r => { r with
      link := some { peer := outlet, part := .inlet }
      linkRecord := some { delete := q.delete, relayed := ((s.trunk q.inlet).received.digits.drop q.delete).length
                           inletComplete := false } }) (.of_same rfl rfl rfl rfl rfl ⟨rfl, rfl⟩ rfl rfl rfl)).trans
    (State.mapTrunk_inner _ outlet (fun r => { r with
      link := some { peer := q.inlet, part := .outlet }
      send := { digits := q.insert ++ (s.trunk q.inlet).received.digits.drop q.delete, endFlag := false, pos := 1 } })
      (.of_same rfl rfl rfl rfl rfl ⟨rfl, rfl⟩ rfl rfl rfl))
  unfold State.makeLink
  dsimp only
  split_ifs
  · exact h.trans (State.completeInlet_inner _ _ _)
  · exact h

theorem State.takeSeize_sound : KeepsSound State.takeSeize := fun s p h => by
  unfold State.takeSeize
  split
  · exact h.sendReply _ _ _
  · exact (s.startCall_inner _).answered h _ _ _
  · exact ((s.startCall_inner _).trans (State.makeLink_inner _ _ _)).answered h _ _ _

theorem State.appendDigits_inner (s : State) (a : AddedDigits) : Inner s (s.appendDigits a) := by
  have h := s.mapTrunk_inner a.trunk (fun r => { r with
    send := { r.send with digits := r.send.digits ++ a.digits, endFlag := r.send.endFlag || a.endFlag } })
    (.of_same rfl rfl rfl rfl rfl ⟨rfl, rfl⟩ rfl rfl rfl)
  unfold State.appendDigits
  dsimp only
  split_ifs
  · exact h.trans (State.takeEnd_inner _ _)
  · exact h
  · exact h.trans (State.takeDigits_inner _ _)

theorem State.takeAddDigits_sound : KeepsSound State.takeAddDigits := fun s p h => by
  unfold State.takeAddDigits
  split
  · exact h.sendReply _ _ _
  · exact (s.appendDigits_inner _).answered h _ _ _

theorem State.acceptNumber_inner (s : State) (t : TrunkNo) (o : RegOutcome) : Inner s (s.acceptNumber t o) := by
  unfold State.acceptNumber State.rejectLinkedInlet
  split
  · exact s.takeCarried_inner t _
  · exact s.completeInlet_inner t _
  · split
    · exact (s.inletGone_inner t).trans (State.takeCarried_inner _ t _)
    · exact s.rejectIn_inner t _

theorem State.takeAcceptDigits_sound : KeepsSound State.takeAcceptDigits := fun s p h => by
  unfold State.takeAcceptDigits
  split
  · exact h.sendReply _ _ _
  · exact (s.acceptNumber_inner _ _).answered h _ _ _

theorem State.answerCall_inner (s : State) (t : TrunkNo) : Inner s (s.answerCall t) := by
  unfold State.answerCall
  split_ifs
  · exact ((s.stampAnswer_inner t).trans (State.countFor_inner _ t _ Traffic.addInAnswer_inner)).trans
      (State.enter_inner _ t (by decide))
  · exact (s.mapRecord_inner t _ fun _ => CallRecord.countAnswer_sound).trans (State.enter_inner _ t (by decide))

theorem State.takeAnswer_sound : KeepsSound State.takeAnswer := fun s p h => by
  unfold State.takeAnswer
  split
  · exact h.sendReply _ _ _
  · exact (s.answerCall_inner _).answered h _ _ _

theorem State.takeClearBack_sound : KeepsSound State.takeClearBack := fun s p h => by
  unfold State.takeClearBack
  split
  · exact h.sendReply _ _ _
  · exact (s.enter_inner _ (by decide)).answered h _ _ _

theorem State.takeRelease_sound : KeepsSound State.takeRelease := fun s p h => by
  unfold State.takeRelease
  split
  · exact h.sendReply _ _ _
  · exact ((s.endRegisterWork_inner _ _).trans (State.clearOut_inner _ _)).answered h _ _ _

/-- R66, R67: the local-block flag is no part of what soundness speaks of. -/
theorem State.setLocalBlock_sound {s : State} (h : s.sound) (t : TrunkNo) (b : Bool) :
    (s.mapTrunk t fun r => { r with localBlock := b }).sound := by
  refine h.of_same rfl rfl rfl rfl h.highway fun u => ?_
  rw [State.mapTrunk_trunk_at]
  split_ifs with e
  · rw [e]; exact ⟨rfl, rfl, rfl, rfl, rfl⟩
  · exact ⟨rfl, rfl, rfl, rfl, rfl⟩

theorem State.takeBlock_sound : KeepsSound State.takeBlock := fun s p h => by
  unfold State.takeBlock
  split
  · exact h.sendReply _ _ _
  · rename_i t _
    have hb := State.setLocalBlock_sound h t true
    refine State.sound.sendReply ?_ _ _ _
    exact hb.ite fun _ => (State.enter_inner _ t (by decide)).keeps_sound hb

theorem State.takeUnblock_sound : KeepsSound State.takeUnblock := fun s p h => by
  unfold State.takeUnblock
  split
  · exact h.sendReply _ _ _
  · rename_i t _
    have hb := State.setLocalBlock_sound h t false
    refine State.sound.sendReply ?_ _ _ _
    exact hb.ite fun _ => (State.enterIdle_inner _ t).keeps_sound hb

theorem State.resetTrunk_inner (s : State) (t : TrunkNo) : Inner s (s.resetTrunk t) :=
  ((((s.endRegisterWork_inner t _).trans (State.endCall_inner _ true t .reset)).ite).trans
    (State.clearCause_inner _ t)).trans (State.enterIdle_inner _ t)

theorem State.takeResetTrunk_sound : KeepsSound State.takeResetTrunk := fun s p h => by
  unfold State.takeResetTrunk
  split
  · exact h.sendReply _ _ _
  · exact (s.resetTrunk_inner _).answered h _ _ _

theorem State.takeQueryTrunk_sound : KeepsSound State.takeQueryTrunk := fun s p h => by
  unfold State.takeQueryTrunk
  split <;> exact h.sendReply _ _ _

/-! ### The commands on the unit -/

theorem State.testRequest_inner (s : State) (t : TrunkNo) (n : Nat) : Inner s (s.testRequest t n).1 := by
  unfold State.testRequest
  split
  · exact s.grantTest_inner _ _ _
  · exact s.withTestQueue_inner _

theorem State.takeMeasure_sound : KeepsSound State.takeMeasure := fun s p h => by
  unfold State.takeMeasure
  split
  · exact h.sendReply _ _ _
  · exact (s.testRequest_inner _ _).answered h _ _ _

theorem State.takeQueryPool_sound : KeepsSound State.takeQueryPool := fun s p h => by
  unfold State.takeQueryPool
  split_ifs <;> exact h.sendReply _ _ _

theorem State.takeReadTraffic_sound : KeepsSound State.takeReadTraffic := fun s p h => by
  unfold State.takeReadTraffic
  split
  · exact h.sendReply _ _ _
  · rename_i g clear _
    refine State.sound.sendReply ?_ _ _ _
    refine h.ite fun _ => h.withTraffic fun k => ?_
    rw [get_set]
    split_ifs
    · simp [Traffic.sound]
    · exact h.traffic k

/-- R197: what a POLL leaves is a part of the queue, in its order. -/
theorem ReportQueue.polled_judged_sound {q : ReportQueue} (h : q.sound) : q.polled.judged.sound := by
  obtain ⟨room, apart, entries, -, low, high⟩ := h
  have sub : q.remaining.Sublist q.entries := List.drop_sublist _ _
  exact ⟨sub.length_le.trans room, apart.sublist sub, fun e he => entries e (sub.subset he), rfl, low, high⟩

theorem State.takePoll_sound : KeepsSound State.takePoll := fun s p h => by
  unfold State.takePoll
  split_ifs
  · exact (h.withReports (ReportQueue.polled_judged_sound h.reports)).sendReply _ _ _
  · exact h.sendReply _ _ _

theorem State.takeReadFault_sound : KeepsSound State.takeReadFault := fun s p h => by
  unfold State.takeReadFault
  split_ifs <;> exact h.sendReply _ _ _

theorem State.takeClearFault_sound : KeepsSound State.takeClearFault := fun s p h => by
  unfold State.takeClearFault
  split
  · exact h.sendReply _ _ _
  · exact State.sound.sendReply (h.ite fun _ => h.withFault _) _ _ _

theorem State.takeIdentify_sound : KeepsSound State.takeIdentify := fun s p h => by
  unfold State.takeIdentify
  split_ifs <;> exact h.sendReply _ _ _

/-! ### The control link -/

theorem State.takeReset_sound : KeepsSound State.takeReset := fun s p h => by
  unfold State.takeReset
  split_ifs
  · exact (h.sendReply resetType .ok []).withLink _
  · exact h.sendReply _ _ _

theorem State.broadcastReset_sound : KeepsSound State.broadcastReset := fun _ _ h =>
  h.ite fun _ => State.afterReset_sound _ _ _ _ _ _

theorem State.takeTimeMark_sound : KeepsSound State.takeTimeMark := fun s p h => by
  unfold State.takeTimeMark
  split_ifs
  · exact (h.withTimeBase _).sendReply _ _ _
  · exact h.sendReply _ _ _

theorem State.broadcastTimeMark_sound : KeepsSound State.broadcastTimeMark := fun _ _ h =>
  h.ite fun _ => h.withTimeBase _

/-- R184: every command that a TYPE names keeps the unit sound. -/
theorem ownerOf_sound {x : Byte} {take : State → List Byte → State} (h : ownerOf x = some take) : KeepsSound take := by
  unfold ownerOf at h
  split at h <;> cases h
  exacts [State.takeSetProfile_sound, State.takeGetProfile_sound, State.takeSetTrunk_sound,
    State.takeSetAnalysis_sound, State.takeGetAnalysis_sound, State.takeSetReporting_sound, State.takeSeize_sound,
    State.takeAddDigits_sound, State.takeAcceptDigits_sound, State.takeAnswer_sound, State.takeClearBack_sound,
    State.takeRelease_sound, State.takeBlock_sound, State.takeUnblock_sound, State.takeResetTrunk_sound,
    State.takeQueryTrunk_sound, State.takeMeasure_sound, State.takeQueryPool_sound, State.takeReadTraffic_sound,
    State.takePoll_sound, State.takeReadFault_sound, State.takeClearFault_sound, State.takeIdentify_sound,
    State.takeReset_sound, State.takeTimeMark_sound]

theorem State.judgeOwn_sound {s : State} (f : Frame) (h : s.sound) : (s.judgeOwn f).sound := by
  unfold State.judgeOwn
  split_ifs
  · exact h.sendReply _ _ _
  · split
    · exact h.sendReply _ _ _
    · rename_i take owner
      exact ownerOf_sound owner s _ h

theorem State.judgeBroadcast_sound {s : State} (f : Frame) (h : s.sound) : (s.judgeBroadcast f).sound := by
  unfold State.judgeBroadcast
  split_ifs
  · exact h
  · exact State.broadcastReset_sound s _ h
  · exact State.broadcastTimeMark_sound s _ h
  · exact h

theorem State.endFrame_sound {s : State} (f : Frame) (h : s.sound) : (s.endFrame f).sound := by
  have hc : s.endCollection.sound := h.withLink _
  unfold State.endFrame State.judgeFrame
  split_ifs
  · exact hc.withLink _
  · split
    · exact State.judgeOwn_sound f hc
    · exact State.judgeBroadcast_sound f hc

theorem State.takeCharacter_sound {s : State} (x : Character) (h : s.sound) : (s.takeCharacter x).sound := by
  unfold State.takeCharacter State.takeData
  split_ifs
  · exact h.withLink _
  · split
    · exact h
    · dsimp only
      split_ifs
      · exact State.endFrame_sound _ h
      · exact h.withLink _

theorem State.hearSample_sound {s : State} (level : Bool) (h : s.sound) : (s.hearSample level).sound := by
  cases e : (s.clk.receiver.sample level).2 with
  | none => rw [State.hearSample_of_none e]; exact h.withLink _
  | some x => rw [State.hearSample_of_some e]; exact State.takeCharacter_sound x (h.withLink _)

theorem State.hearSamples_sound (samples : CharSamples) {s : State} (h : s.sound) :
    (samples.foldl State.hearSample s).sound := by
  induction samples generalizing s with
  | nil => exact h
  | cons level samples ih => exact ih (State.hearSample_sound level h)

/-! ### Every command and every step -/

theorem exec_sound (c : Instr) {s : State} (h : s.sound) : SoundAnswer (exec c s) := by
  cases c with
  | powerOnReset straps => exact soundAnswer_next (State.afterReset_sound _ _ _ _ _ _)
  | pinReset straps => exact soundAnswer_next (State.afterReset_sound _ _ _ _ _ _)
  | fsEdge => exact soundAnswer_next (h.withTimeBase _)
  | fsLoss => exact execFsLoss_sound h
  | millisecondEvent => exact execMillisecondEvent_sound h
  | transmitFrameEvent =>
    show SoundAnswer (if s.tmb.frameDue then _ else _)
    split_ifs
    · exact soundAnswer_next
        ⟨h.reports, h.trunks, h.bothWay, h.traffic, h.profiles, h.analysis, h.highway⟩
    · exact soundAnswer_next h
  | durationTick => exact execDurationTick_sound h
  | huntAlignmentWord frame => exact execHuntAlignmentWord_sound frame h
  | receivedFrameEvent frame => exact execReceivedFrameEvent_sound frame h
  | holdAlignmentWord frame => exact execHoldAlignmentWord_sound frame h
  | holdLimitExpiry =>
    show SoundAnswer (if s.inHold ∧ s.hwi.limitDue = true then _ else _)
    split_ifs
    · exact soundAnswer_next (State.hitHoldLimit_sound h)
    · exact soundAnswer_next h
  | ackTimerExpiry t => exact (s.ackTimedOut_inner t).ite.soundAnswer h
  | answerWaitExpiry t => exact (s.forcedClear_inner t _).ite.soundAnswer h
  | clearBackTimerExpiry t => exact (s.forcedClear_inner t _).ite.soundAnswer h
  | releaseTimerExpiry t => exact (s.releaseTimedOut_inner t).ite.soundAnswer h
  | guardTimerExpiry t => exact (s.finishCall_inner t).ite.soundAnswer h
  | sendBreakExpiry t =>
    refine Inner.soundAnswer ?_ h
    split
    · exact s.breakSent_inner t _
    · exact .refl s
  | sendMakeExpiry t =>
    refine Inner.soundAnswer ?_ h
    split
    · exact s.makeSent_inner t _
    · exact .refl s
  | pauseTimerExpiry t =>
    refine Inner.soundAnswer ?_ h
    split
    · exact s.pauseEnded_inner t _
    · exact .refl s
  | decadicSenderDigitWait t =>
    refine Inner.soundAnswer ?_ h
    split
    · exact s.outOutcome_inner t _
    · exact .refl s
  | digitEndTimerExpiry t =>
    refine Inner.soundAnswer ?_ h
    split
    · exact (s.digitEndExpired_inner t _).ite
    · exact .refl s
  | clearRecognitionExpiry t => exact (s.clearForward_inner t).ite.soundAnswer h
  | decadicDigitWaitExpiry t =>
    refine Inner.soundAnswer ?_ h
    split
    · exact (s.digitWaitEnded_inner t _).ite
    · exact .refl s
  | callWaitExpiry t =>
    refine Inner.soundAnswer ?_ h
    split
    · exact s.callWaitEnded_inner _
    · exact .refl s
  | testWaitExpiry t => exact (s.testWaitEnded_inner t).ite.soundAnswer h
  | toneBlockEvent u =>
    show SoundAnswer (match (s.unit u).ended with | some b => _ | none => _)
    split
    · exact (s.blockEnded_inner u _).soundAnswer h
    · exact soundAnswer_next h
  | senderDigitWaitExpiry t =>
    refine Inner.soundAnswer ?_ h
    split
    · exact s.endSender_inner t _
    · exact .refl s
  | senderInterlockExpiry t =>
    refine Inner.soundAnswer ?_ h
    split
    · exact s.endSender_inner t _
    · exact .refl s
  | receiverInterlockExpiry t =>
    refine Inner.soundAnswer ?_ h
    split
    · exact s.receiverInterlockEnded_inner t _
    · exact .refl s
  | receiverDigitWaitExpiry t =>
    refine Inner.soundAnswer ?_ h
    split
    · exact s.receiverWaitEnded_inner t _ _
    · exact .refl s
  | pulseTimerExpiry t =>
    refine Inner.soundAnswer ?_ h
    split
    · exact s.endTone_inner true t
    · exact .refl s
  | hostDecisionWaitExpiry t =>
    refine Inner.soundAnswer ?_ h
    split
    · exact s.outsideOutcome_inner t _ _
    · exact .refl s
  | attnHoldTimeReached =>
    obtain ⟨room, apart, entries, -, low, high⟩ := h.reports
    exact soundAnswer_next (h.withReports ⟨room, apart, entries, rfl, low, high⟩)
  | commandFrame frame => exact soundAnswer_next (h.ite fun _ => State.endFrame_sound frame h)
  | replyComplete =>
    refine soundAnswer_next ?_
    split_ifs
    · exact h
    · exact State.afterReset_sound _ _ _ _ _ _
    · exact h.withLink _
  | setProfile p => exact soundAnswer_next (State.takeSetProfile_sound s p h)
  | getProfile p => exact soundAnswer_next (State.takeGetProfile_sound s p h)
  | setTrunk p => exact soundAnswer_next (State.takeSetTrunk_sound s p h)
  | setAnalysis p => exact soundAnswer_next (State.takeSetAnalysis_sound s p h)
  | getAnalysis p => exact soundAnswer_next (State.takeGetAnalysis_sound s p h)
  | setReporting p => exact soundAnswer_next (State.takeSetReporting_sound s p h)
  | seize p => exact soundAnswer_next (State.takeSeize_sound s p h)
  | addDigits p => exact soundAnswer_next (State.takeAddDigits_sound s p h)
  | acceptDigits p => exact soundAnswer_next (State.takeAcceptDigits_sound s p h)
  | answer p => exact soundAnswer_next (State.takeAnswer_sound s p h)
  | clearBack p => exact soundAnswer_next (State.takeClearBack_sound s p h)
  | release p => exact soundAnswer_next (State.takeRelease_sound s p h)
  | block p => exact soundAnswer_next (State.takeBlock_sound s p h)
  | unblock p => exact soundAnswer_next (State.takeUnblock_sound s p h)
  | resetTrunk p => exact soundAnswer_next (State.takeResetTrunk_sound s p h)
  | queryTrunk p => exact soundAnswer_next (State.takeQueryTrunk_sound s p h)
  | measure p => exact soundAnswer_next (State.takeMeasure_sound s p h)
  | queryPool p => exact soundAnswer_next (State.takeQueryPool_sound s p h)
  | readTraffic p => exact soundAnswer_next (State.takeReadTraffic_sound s p h)
  | poll p => exact soundAnswer_next (State.takePoll_sound s p h)
  | readFault p => exact soundAnswer_next (State.takeReadFault_sound s p h)
  | clearFault p => exact soundAnswer_next (State.takeClearFault_sound s p h)
  | identify p => exact soundAnswer_next (State.takeIdentify_sound s p h)
  | reset dest p =>
    cases dest
    · exact soundAnswer_next (State.takeReset_sound s p h)
    · exact soundAnswer_next (State.broadcastReset_sound s p h)
  | timeMark dest p =>
    cases dest
    · exact soundAnswer_next (State.takeTimeMark_sound s p h)
    · exact soundAnswer_next (State.broadcastTimeMark_sound s p h)
  | sampleEvent lrx swx =>
    exact soundAnswer_next ⟨h.reports, h.trunks, h.bothWay, h.traffic, h.profiles, h.analysis, h.highway⟩
  | characterReceived samples => exact soundAnswer_next (State.hearSamples_sound samples h)

/-- Settles O56: an idle step changes nothing, and every other step carries out one command. -/
theorem soundnessIsKeptByEveryStep : Obligations.SoundnessIsKeptByEveryStep := by
  unfold Obligations.SoundnessIsKeptByEveryStep
  intro s u h e
  unfold step at e
  split at e
  · cases e; exact h
  · rename_i c rest _
    exact exec_sound c (h.withPending rest) u e

end Sys2Proof.Machine
end

section
/-! PROOFS. The resets, TIME-MARK, frame sync outside ALIGNED, the hunt, the received frame and SET-REPORTING. -/

namespace Sys2Proof.Machine

/-! ### Resets -/

/-- R33, R34: an untouched trunk record is a reset one. -/
theorem Trunk.default_holdsResetValues : ({} : Trunk).holdsResetValues :=
  ⟨⟨rfl, rfl, rfl, rfl, rfl⟩, ⟨rfl, rfl, rfl, rfl, rfl, rfl, rfl, rfl, rfl, rfl⟩, ⟨rfl, rfl, rfl⟩, ⟨rfl, rfl, rfl⟩,
    rfl, rfl, rfl, rfl, rfl, rfl⟩

/-- R200: every reset gives the reset values, with a link that waits for a frame. -/
theorem State.afterReset_holdsResetValues (cause : ResetCause) (tmb : TimeBase) (clk : ControlLink)
    (sgtx : Option SigFrame) (ltx : Option (Vector Byte 32)) (pending : List Instr)
    (search : clk.receiver.search = .searching) (collection : clk.collection = .idle) (buffer : clk.buffer = [])
    (reply : clk.reply = none) (overrun : clk.overrun = false) (resetPending : clk.resetPending = false) :
    (State.afterReset cause tmb clk sgtx ltx pending).holdsResetValues where
  alignment := ⟨rfl, rfl, rfl, rfl, rfl, rfl, rfl⟩
  profiles n := by
    rw [show (State.afterReset cause tmb clk sgtx ltx pending).profiles.get n = {} from get_replicate _ n]
    decide
  trunks k := by
    rw [show (State.afterReset cause tmb clk sgtx ltx pending).trunk k = {} from get_replicate _ k]
    exact Trunk.default_holdsResetValues
  pool := ⟨fun u => by
    rw [show (State.afterReset cause tmb clk sgtx ltx pending).unit u = {} from get_replicate _ u], rfl, rfl⟩
  analysis k := by
    rw [show (State.afterReset cause tmb clk sgtx ltx pending).analysis.get k = {} from get_replicate _ k]
    exact ⟨rfl, rfl, rfl, get_replicate _ 0, rfl, rfl⟩
  counters := ⟨rfl, fun g => by
    rw [show (State.afterReset cause tmb clk sgtx ltx pending).traffic.get g = {} from get_replicate _ g]
    decide⟩
  reports := ⟨rfl, rfl, rfl, rfl, rfl⟩
  fault := ⟨rfl, rfl⟩
  link := ⟨search, collection, buffer, reply, overrun, resetPending⟩

/-- R200: what a power-on or pin reset leaves. -/
theorem State.afterHardReset_holdsResetValues (cause : ResetCause) (straps : Straps) (pending : List Instr) :
    (State.afterHardReset cause straps pending).holdsResetValues :=
  State.afterReset_holdsResetValues _ _ _ _ _ _ rfl rfl rfl rfl rfl rfl

/-- R187, R200: what the RESET command leaves. -/
theorem State.commandReset_holdsResetValues (s : State) : s.commandReset.holdsResetValues :=
  State.afterReset_holdsResetValues _ _ _ _ _ _ rfl rfl rfl rfl rfl rfl

/-- Settles O3. -/
theorem powerOnAndPinResetGiveTheResetValues : Obligations.PowerOnAndPinResetGiveTheResetValues := by
  unfold Obligations.PowerOnAndPinResetGiveTheResetValues
  have valid : ∀ straps, addressValid straps = true ↔ lowPins straps % 2 = 1 ∧ strapAddress straps ≠ 31 := by
    intro straps
    simp [addressValid]
  have pin : ∀ cause straps pending, (State.afterHardReset cause straps pending).faultPin = true ↔
      addressValid straps = false := by
    intro cause straps pending
    show (!addressValid straps) = true ↔ _
    simp
  intro straps s c hc
  simp only [List.mem_cons, List.not_mem_nil, or_false] at hc
  rcases hc with rfl | rfl
  · exact ⟨_, rfl, State.afterHardReset_holdsResetValues _ _ _, rfl, rfl, rfl, valid straps, pin _ _ _, rfl⟩
  · exact ⟨_, rfl, State.afterHardReset_holdsResetValues _ _ _, rfl, rfl, rfl, valid straps, pin _ _ _, rfl⟩

/-- Settles O4. -/
theorem resetCommandGivesTheResetValues : Obligations.ResetCommandGivesTheResetValues := by
  unfold Obligations.ResetCommandGivesTheResetValues
  intro s p
  refine ⟨⟨s.commandReset, rfl, s.commandReset_holdsResetValues, rfl, rfl, rfl, rfl, rfl⟩, ⟨_, rfl, rfl, rfl⟩,
    fun hp => ⟨?_, ?_⟩⟩
  · exact congrArg Host.Outcome.next (if_neg hp : s.broadcastReset p = s)
  · exact congrArg Host.Outcome.next (if_neg hp : s.takeReset p = s.refuse resetType .badLength)

/-! ### TIME-MARK -/

/-- Four bytes, the first the most significant, spell the word that they make when set in a row. -/
theorem natOf_four (a b c d : Byte) : BitVec.ofNat 32 (natOf [a, b, c, d]) = a ++ b ++ c ++ d := by
  apply BitVec.eq_of_toNat_eq
  simp only [natOf, List.foldl_cons, List.foldl_nil, BitVec.toNat_ofNat, BitVec.toNat_append]
  have ha := a.isLt; have hb := b.isLt; have hc := c.isLt; have hd := d.isLt
  rw [← Nat.shiftLeft_add_eq_or_of_lt hb, ← Nat.shiftLeft_add_eq_or_of_lt hc, ← Nat.shiftLeft_add_eq_or_of_lt hd]
  simp only [Nat.shiftLeft_eq]
  omega

/-- R3: a millisecond event adds 1 to the counter. -/
theorem execMillisecondEvent_counter {s v : State} (h : execMillisecondEvent s = .next v) :
    v.tmb.counter = s.tmb.counter + 1 := by
  unfold execMillisecondEvent at h
  cases h
  split_ifs <;> rfl

/-- Settles O5. -/
theorem timeMarkLoadsTheCounter : Obligations.TimeMarkLoadsTheCounter := by
  unfold Obligations.TimeMarkLoadsTheCounter
  intro s a b c d p
  have load : s.loadCounter [a, b, c, d] = { s with tmb := { s.tmb with counter := a ++ b ++ c ++ d } } := by
    rw [State.loadCounter, natOf_four]
  have broadcast : exec (.timeMark .broadcast [a, b, c, d]) s = .next (s.loadCounter [a, b, c, d]) := rfl
  have own : exec (.timeMark .own [a, b, c, d]) s = .next ((s.loadCounter [a, b, c, d]).sendReply 0x35 .ok []) := rfl
  rw [broadcast, own, load]
  refine ⟨rfl, rfl, fun x hx u v hu hv => ?_, fun hp => ⟨?_, ?_⟩⟩
  · rw [execMillisecondEvent_counter hv]
    simp only [List.mem_cons, List.not_mem_nil, or_false] at hx
    rcases hx with rfl | rfl
    · rw [own, load] at hu; cases hu; rfl
    · rw [broadcast, load] at hu; cases hu; rfl
  · exact congrArg Host.Outcome.next (if_neg hp : s.broadcastTimeMark p = s)
  · exact congrArg Host.Outcome.next (if_neg hp : s.takeTimeMark p = s.refuse timeMarkType .badLength)

/-! ### Frame sync, the hunt and the received frame -/

/-- R2, R9: FS loss while FS is present. -/
theorem execFsLoss_present {s : State} (h : s.tmb.fsPresent = true) : exec .fsLoss s =
    .next ({ s with tmb := { s.tmb with fsPresent := false, source := .crystal } } : State).alignmentFsLoss :=
  if_pos h

/-- Settles O6. -/
theorem frameSyncEdgeAndLossOutsideAligned : Obligations.FrameSyncEdgeAndLossOutsideAligned := by
  unfold Obligations.FrameSyncEdgeAndLossOutsideAligned
  intro s
  refine ⟨rfl, fun hf ha => ?_, fun hf ha => ?_⟩
  · rw [execFsLoss_present hf]
    simp only [State.alignmentFsLoss, ha]
  · rw [execFsLoss_present hf]
    simp only [State.alignmentFsLoss, ha]

/-- R8: a frame with the correct word in ALIGNED is taken. -/
theorem execReceivedFrame_correct {s : State} {f : SigFrame} (ha : s.hwi.alignment = .aligned)
    (hf : s.tmb.fsPresent = true) (hw : frameWord f = alignmentWord) :
    exec (.receivedFrameEvent f) s = .next (({ s with hwi := { s.hwi with wrong := 0 } } : State).takeFrame f) := by
  show execReceivedFrameEvent f s = _
  rw [execReceivedFrameEvent, if_pos ⟨ha, hf⟩, if_pos hw]

/-- R8: a frame with a wrong word in ALIGNED is counted, and the fourth starts a hold. -/
theorem execReceivedFrame_wrong {s : State} {f : SigFrame} (ha : s.hwi.alignment = .aligned)
    (hf : s.tmb.fsPresent = true) (hw : frameWord f ≠ alignmentWord) : exec (.receivedFrameEvent f) s =
      if s.hwi.wrong + 1 < 4 then .next { s with hwi := { s.hwi with wrong := s.hwi.wrong + 1 } }
      else .next (s.startHold .alignment) := by
  show execReceivedFrameEvent f s = _
  rw [execReceivedFrameEvent, if_pos ⟨ha, hf⟩, if_neg hw]

/-- Settles O9. -/
theorem huntNeedsThreeCorrectWords : Obligations.HuntNeedsThreeCorrectWords := by
  unfold Obligations.HuntNeedsThreeCorrectWords
  intro s f ha hf
  have hunt : exec (.huntAlignmentWord f) s = execHuntAlignmentWord f s := rfl
  rw [hunt, execHuntAlignmentWord, if_pos ⟨ha, hf⟩]
  have word : alignmentWord = 0b01110010#8 := rfl
  rw [← word]
  refine ⟨fun hw => if_neg hw, fun hw ht => ?_, fun hw ht hc => ?_, fun hw ht hc => ?_⟩
  · rw [if_pos hw, if_neg (by simp [ht])]
    simp [ht]
  · rw [if_pos hw, if_neg (by simp [hc])]
    simp [ht, hc]
  · rw [if_pos hw, if_pos ⟨ht, by omega⟩]
    exact (execReceivedFrame_correct (s := { s with hwi := { s.hwi with
      alignment := .aligned, trial := false, correct := 0, wrong := 0 } }) rfl hf hw).symm

/-- Settles O10. -/
theorem receivedFrameIsTakenOrSkipped : Obligations.ReceivedFrameIsTakenOrSkipped := by
  unfold Obligations.ReceivedFrameIsTakenOrSkipped
  intro s f ha hf
  refine ⟨fun hw => execReceivedFrame_correct ha hf hw, fun hw hn => ?_⟩
  rw [execReceivedFrame_wrong ha hf hw, if_pos (by omega)]

/-! ### SET-REPORTING -/

/-- R195: ATTN is pulled low exactly while the queue holds enough entries or an old enough one. -/
theorem ReportQueue.wantsAttention_iff (q : ReportQueue) : q.wantsAttention = true ↔
    ∃ e rest, q.entries = e :: rest ∧ (q.threshold ≤ rest.length + 1 ∨ 10 * q.holdTime ≤ e.age) := by
  unfold ReportQueue.wantsAttention
  split
  · rename_i he
    simp [he]
  · rename_i e rest he
    simp [he]

theorem Highway.setLimit_holdTimer_none (h : Highway) (limit : Nat) (k : h.holdTimer = none ∨ h.holdLimit = limit) :
    (h.setLimit limit).holdTimer = h.holdTimer := by
  rcases k with k | k <;> simp [Highway.setLimit, k]

/-- Settles O46. -/
theorem setReportingStoresThreeValuesAtOnce : Obligations.SetReportingStoresThreeValuesAtOnce := by
  unfold Obligations.SetReportingStoresThreeValuesAtOnce
  intro s a b c p th limit hth hlimit
  have taken : s.takeSetReporting [a, b, c] = (s.storeReporting th b.toNat limit).sendReply setReportingType
      (if th = a.toNat ∧ limit = c.toNat then .ok else .okClamped) [byte th, byte b.toNat, byte limit] := by
    subst hth hlimit
    exact if_pos rfl
  rw [show byte b.toNat = b by simp [byte]] at taken
  refine ⟨⟨s.storeReporting th b.toNat limit, congrArg Host.Outcome.next taken, rfl, ?_, fun x hx hl => ?_,
    Highway.setLimit_holdTimer_none _ _⟩, fun hp => ?_⟩
  · exact ReportQueue.wantsAttention_iff _
  · show (s.hwi.setLimit _).holdTimer = _
    simp [Highway.setLimit, hx, hl, HoldTimer.rebase]
  · exact congrArg Host.Outcome.next (if_neg hp : s.takeSetReporting p = s.refuse setReportingType .badLength)

end Sys2Proof.Machine
end

section
/-! PROOFS. The millisecond event, the transmit frame event and the duration tick. -/

namespace Sys2Proof.Machine

/-! ### The millisecond event -/

/-- R5, R10: what of the trunks and the wait queues a millisecond event counts: in HOLD nothing. -/
theorem State.tickTimers_unless_hold (s : State) : ∃ trunks calls tests,
    (if s.inHold then s else s.tickTimers) = { s with trunks := trunks, callQueue := calls, testQueue := tests } ∧
    (s.hwi.alignment = .hold → trunks = s.trunks ∧ calls = s.callQueue ∧ tests = s.testQueue) ∧
    (s.hwi.alignment ≠ .hold → trunks = s.trunks.map Trunk.tick ∧
      calls = s.callQueue.map (fun e => { e with left := e.left - 1 }) ∧
      tests = s.testQueue.map (fun e => { e with left := e.left - 1 })) := by
  have hold : s.inHold = true ↔ s.hwi.alignment = .hold := by simp [State.inHold]
  by_cases h : s.hwi.alignment = .hold
  · rw [if_pos (hold.mpr h)]
    exact ⟨_, _, _, rfl, fun _ => ⟨rfl, rfl, rfl⟩, fun n => absurd h n⟩
  · rw [if_neg (mt hold.mp h)]
    exact ⟨_, _, _, rfl, fun n => absurd n h, fun _ => ⟨rfl, rfl, rfl⟩⟩

/-- R4: the frame divider makes every second millisecond event a transmit frame event. -/
theorem TimeBase.tick_frameDue (b : TimeBase) : b.tick.frameDue = true ↔ b.frameDue = true ∨ b.frameDiv = 1 := by
  simp [TimeBase.tick]

/-- R4: the tick divider makes every tenth millisecond event a duration tick. -/
theorem TimeBase.tick_tickDue (b : TimeBase) : b.tick.tickDue = true ↔ b.tickDue = true ∨ b.tickDiv = 9 := by
  simp [TimeBase.tick]

/-- Settles O7. -/
theorem millisecondEventCountsEveryTimer : Obligations.MillisecondEventCountsEveryTimer := by
  unfold Obligations.MillisecondEventCountsEveryTimer
  intro s
  obtain ⟨trunks, calls, tests, hx, held, counted⟩ := s.tickTimers_unless_hold
  have answer : exec .millisecondEvent s = .next
      (({ s with trunks := trunks, callQueue := calls, testQueue := tests, tmb := s.tmb.tick, hwi := s.hwi.tick } :
        State).withReports s.rqa.tick) := by
    show execMillisecondEvent s = _
    unfold execMillisecondEvent
    rw [hx]
  refine ⟨_, answer, rfl, s.tmb.tick_frameDue, s.tmb.tick_tickDue, rfl, rfl, s.rqa.tick.wantsAttention_iff, rfl,
    held, fun h => ?_, rfl, rfl, rfl, rfl, rfl, rfl, rfl, rfl, rfl, rfl⟩
  obtain ⟨rfl, hcalls, htests⟩ := counted h
  refine ⟨hcalls, htests, fun t => ?_⟩
  rw [State.withReports_trunk, State.trunk, get_map]
  change (s.trunk t).tick = _ ∧ _
  exact ⟨rfl, rfl, fun c hc => congrArg (Option.map ToneContext.tick) hc,
    fun c hc => congrArg (Option.map ToneContext.tick) hc, fun c hc => congrArg (Option.map DecadicContext.tick) hc,
    fun c hc => congrArg (Option.map DecadicContext.tick) hc, fun c hc => congrArg (Option.map DecadicContext.tick) hc,
    fun hc => congrArg (Option.map DecadicContext.tick) hc, fun hc => congrArg (Option.map ToneContext.tick) hc⟩

end Sys2Proof.Machine
end

section
/-! PROOFS. The transmit frame event and the duration tick. -/

namespace Sys2Proof.Machine

/-! ### The transmitted frame -/

/-- R1: the bits of line codes set in a row after a word: three bits of each code, the last code in the lowest places. -/
theorem testBit_codes (w : Nat) (codes : List LineCode) (j : Nat) :
    (codes.foldl (fun n c => n * 8 + c.toNat) w).testBit j =
      if j < 3 * codes.length then (codes.getD (codes.length - 1 - j / 3) 0).getLsbD (j % 3)
      else w.testBit (j - 3 * codes.length) := by
  induction codes using List.reverseRecOn generalizing j with
  | nil => simp
  | append_singleton codes c ih =>
    have shift : ∀ n, n * 8 + c.toNat = 2 ^ 3 * n + c.toNat := fun n => by omega
    rw [List.foldl_append, List.foldl_cons, List.foldl_nil, shift, Nat.testBit_two_pow_mul_add _ c.isLt, ih]
    simp only [List.length_append, List.length_singleton, List.getD_eq_getElem?_getD]
    by_cases low : j < 3
    · have last : codes.length + 1 - 1 - j / 3 = codes.length := by omega
      rw [if_pos low, if_pos (by omega), last, List.getElem?_append_right le_rfl, Nat.mod_eq_of_lt low]
      simp [BitVec.getLsbD]
    · rw [if_neg low]
      by_cases h : j - 3 < 3 * codes.length
      · have place : codes.length + 1 - 1 - j / 3 = codes.length - 1 - (j - 3) / 3 := by omega
        have bit : (j - 3) % 3 = j % 3 := by omega
        rw [if_pos h, if_pos (by omega), place, bit, List.getElem?_append_left (by omega)]
      · rw [if_neg h, if_neg (by omega)]
        congr 1
        omega

/-- R1: the bits of a frame, by their places from the last. -/
theorem frameOf_getLsbD (codes : List LineCode) (h : codes.length = 32) (j : Nat) (hj : j < 104) :
    (frameOf codes).getLsbD j =
      if j < 96 then (codes.getD (31 - j / 3) 0).getLsbD (j % 3) else alignmentWord.getLsbD (j - 96) := by
  rw [frameOf, BitVec.getLsbD_ofNat, testBit_codes, h]
  simp [hj, BitVec.getLsbD]

theorem State.sentCodes_getD (s : State) (t : TrunkNo) :
    (s.trunks.toList.map (·.sentCode)).getD t.val 0 = (s.trunk t).sentCode := by
  simp [List.getD_eq_getElem?_getD, State.trunk, Vector.get_eq_getElem]

/-- R1: a transmitted frame begins with the alignment word. -/
theorem State.sentFrame_word (s : State) (k : Fin 8) : s.sentFrame.getMsbD k.val = alignmentWord.getMsbD k.val := by
  rw [BitVec.getMsbD_eq_getLsbD, BitVec.getMsbD_eq_getLsbD, State.sentFrame, frameOf_getLsbD _ (by simp) _ (by omega),
    if_neg (by omega), show 104 - 1 - k.val - 96 = 8 - 1 - k.val by omega]
  simp [show k.val < 104 by omega]

/-- R1: the sent code of each trunk follows, T0 first, most significant bit first. -/
theorem State.sentFrame_code (s : State) (t : TrunkNo) (k : Fin 3) :
    s.sentFrame.getMsbD (8 + 3 * t.val + k.val) = (s.trunk t).sentCode.getMsbD k.val := by
  rw [BitVec.getMsbD_eq_getLsbD, BitVec.getMsbD_eq_getLsbD, State.sentFrame, frameOf_getLsbD _ (by simp) _ (by omega),
    if_pos (by omega), show 31 - (104 - 1 - (8 + 3 * t.val + k.val)) / 3 = t.val by omega, State.sentCodes_getD,
    show (104 - 1 - (8 + 3 * t.val + k.val)) % 3 = 3 - 1 - k.val by omega]
  simp [show 8 + 3 * t.val + k.val < 104 by omega]

/-! ### The duration tick -/

/-- R173: a trunk's record after a duration tick. -/
def State.tickedTrunk (s : State) (t : TrunkNo) : Trunk :=
  { s.trunk t with record := (s.trunk t).record.map (CallRecord.tick (s.countsConversation t)) }

/-- R176: a trunk whose open record counts for a group at a duration tick. -/
def State.occupies (s : State) (g : GroupNo) (t : TrunkNo) : Bool :=
  (s.trunk t).record.isSome && (s.trunk t).group == g

theorem State.tickRecord_trunk (s : State) (t k : TrunkNo) :
    (s.tickRecord t).trunk k = if k = t then s.tickedTrunk t else s.trunk k := by
  unfold State.tickRecord
  split_ifs with open_ e e
  · subst e
    rw [State.countFor_trunk, State.mapRecord, State.mapTrunk_trunk]
    rfl
  · rw [State.countFor_trunk, State.mapRecord, State.mapTrunk_trunk_ne _ _ e]
  · subst e
    rw [State.tickedTrunk, Option.not_isSome_iff_eq_none.mp open_, Option.map_none,
      ← Option.not_isSome_iff_eq_none.mp open_]
  · rfl

/-- R176: a count is for the group of the trunk alone. -/
theorem State.countFor_traffic (s : State) (t : TrunkNo) (f : Traffic → Traffic) (g : GroupNo) :
    (s.countFor t f).traffic.get g = if (s.trunk t).group = g then f (s.traffic.get g) else s.traffic.get g := by
  rw [State.countFor, get_set]
  split_ifs with e
  · rw [e]
  · rfl

/-- R176: one turn of a duration tick counts for the group of the trunk. -/
theorem State.tickRecord_traffic (s : State) (t : TrunkNo) (g : GroupNo) : (s.tickRecord t).traffic.get g =
    if s.occupies g t then { s.traffic.get g with occupancy := countUp (s.traffic.get g).occupancy 1 }
    else s.traffic.get g := by
  unfold State.tickRecord State.occupies
  by_cases open_ : (s.trunk t).record.isSome = true
  · have group : ((s.mapRecord t (CallRecord.tick (s.countsConversation t))).trunk t).group = (s.trunk t).group := by
      rw [State.mapRecord, State.mapTrunk_trunk]
    rw [if_pos open_, State.countFor_traffic, group, open_, Bool.true_and]
    simp only [beq_iff_eq]
    rfl
  · rw [if_neg open_, if_neg (by simp [open_])]

theorem State.tickRecord_rest (s : State) (t : TrunkNo) :
    s.tickRecord t = { s with trunks := (s.tickRecord t).trunks, traffic := (s.tickRecord t).traffic } := by
  unfold State.tickRecord
  split_ifs <;> rfl

theorem State.tickRecord_tickedTrunk (s : State) {t k : TrunkNo} (h : k ≠ t) :
    (s.tickRecord t).tickedTrunk k = s.tickedTrunk k := by
  have i := s.tickRecord_inner t
  unfold State.tickedTrunk State.countsConversation State.inHold State.profileOf
  rw [State.tickRecord_trunk, if_neg h, i.hwi, i.profiles]

/-- A tick neither opens nor closes a record, nor moves a trunk to another group. -/
theorem State.tickRecord_occupies (s : State) (t : TrunkNo) (g : GroupNo) :
    (s.tickRecord t).occupies g = s.occupies g := by
  funext k
  unfold State.occupies
  rw [State.tickRecord_trunk]
  split_ifs with e
  · subst e; simp [State.tickedTrunk]
  · rfl

/-- A duration tick at a list of distinct trunks. -/
theorem State.tickRecords_trunk (l : List TrunkNo) (hl : l.Nodup) (s : State) (k : TrunkNo) :
    (l.foldl State.tickRecord s).trunk k = if k ∈ l then s.tickedTrunk k else s.trunk k := by
  induction l generalizing s with
  | nil => simp
  | cons t l ih =>
    obtain ⟨ht, hl⟩ := List.nodup_cons.mp hl
    rw [List.foldl_cons, ih hl]
    by_cases e : k = t
    · subst e
      simp [ht, State.tickRecord_trunk]
    · rw [State.tickRecord_tickedTrunk _ e, State.tickRecord_trunk, if_neg e]
      simp [e]

theorem State.tickRecords_traffic (l : List TrunkNo) (s : State) (g : GroupNo)
    (h : (s.traffic.get g).occupancy ≤ Config.counterMax) : (l.foldl State.tickRecord s).traffic.get g =
      { s.traffic.get g with
        occupancy := min Config.counterMax ((s.traffic.get g).occupancy + l.countP (s.occupies g)) } := by
  induction l generalizing s with
  | nil => simp [min_eq_right h]
  | cons t l ih =>
    rw [List.foldl_cons, ih, State.tickRecord_occupies, State.tickRecord_traffic, List.countP_cons]
    · split_ifs with occupied
      · simp only [countUp]
        congr 1
        omega
      · rfl
    · rw [State.tickRecord_traffic]
      split_ifs
      · exact countUp_le _ _
      · exact h

theorem State.tickRecords_rest (l : List TrunkNo) (s : State) : l.foldl State.tickRecord s =
    { s with trunks := (l.foldl State.tickRecord s).trunks, traffic := (l.foldl State.tickRecord s).traffic } := by
  induction l generalizing s with
  | nil => rfl
  | cons t l ih =>
    obtain ⟨trunks, traffic, turn⟩ : ∃ x y, s.tickRecord t = { s with trunks := x, traffic := y } :=
      ⟨_, _, s.tickRecord_rest t⟩
    rw [List.foldl_cons, turn]
    exact ih _

/-- R173: the conversation of a trunk is counted in the two answered states, and in hold where the profile says so. -/
theorem State.countsConversation_iff (s : State) (t : TrunkNo) : s.countsConversation t = true ↔
    ((s.trunk t).state = .outAnswered ∨ (s.trunk t).state = .inAnswered) ∧
      (s.hwi.alignment = .hold → (s.profiles.get (s.trunk t).profile).holdCount = true) := by
  simp [State.countsConversation, State.inHold, State.profileOf, imp_iff_not_or]

/-- Settles O12. -/
theorem transmitFramesAndDurationTicks : Obligations.TransmitFramesAndDurationTicks := by
  unfold Obligations.TransmitFramesAndDurationTicks
  refine ⟨fun s due => ⟨s.sentFrame, if_pos due, s.sentFrame_word, s.sentFrame_code⟩, fun s due bound => ?_⟩
  let x : State := { s with tmb := { s.tmb with tickDue := false } }
  refine ⟨x.forTrunks State.tickRecord, if_pos due, fun t => ?_, fun g => ?_, State.tickRecords_rest _ x⟩
  · rw [State.forTrunks, State.tickRecords_trunk _ (List.nodup_finRange 32), if_pos (List.mem_finRange t)]
    show x.tickedTrunk t = _
    unfold State.tickedTrunk CallRecord.tick
    simp only [State.countsConversation_iff]
    rfl
  · exact State.tickRecords_traffic _ x g (bound g)

end Sys2Proof.Machine
end

section
/-! PROOFS. The line-code filter. -/

namespace Sys2Proof.Machine

/-- R14: what a code changes in a receiver that has not reached the persistence. -/
def State.withCandidate (s : State) (t : TrunkNo) (c : Option Candidate) : State :=
  s.mapTrunk t fun r => { r with lcr := { r.lcr with candidate := c } }

/-- R14: what the acceptance of a code changes. -/
def State.withAccepted (s : State) (t : TrunkNo) (code : LineCode) : State :=
  s.mapTrunk t fun r => { r with lcr := { r.lcr with accepted := some code, candidate := none } }

/-- R15: the persistence of a trunk's filter mode. -/
def State.persistenceOf (s : State) (t : TrunkNo) : Nat := (s.profileOf t).persistence (s.trunk t).lcr.mode

theorem State.persistenceOf_eq (s : State) (t : TrunkNo) : s.persistenceOf t =
    if (s.trunk t).lcr.mode = .line then (s.profiles.get (s.trunk t).profile).linePersistence
    else (s.profiles.get (s.trunk t).profile).pulsePersistence := by
  unfold State.persistenceOf
  cases (s.trunk t).lcr.mode <;> rfl

/-- R17: an UNEQUIPPED trunk takes no code. -/
theorem State.takeCode_unequipped {s : State} {t : TrunkNo} (code : LineCode) (h : (s.trunk t).role = .unequipped) :
    s.takeCode t code = s := by
  unfold State.takeCode
  exact if_pos h

/-- R14: the accepted code discards a candidate. -/
theorem State.takeCode_accepted {s : State} {t : TrunkNo} {code : LineCode} (equipped : (s.trunk t).role ≠ .unequipped)
    (h : (s.trunk t).lcr.accepted = some code) : s.takeCode t code = s.withCandidate t none := by
  have next : (s.trunk t).lcr.nextCandidate code = none := if_pos h
  unfold State.takeCode
  rw [if_neg equipped, if_neg (by simp [LineReceiver.accepts, next])]
  exact State.mapTrunk_congr _ _ (by rw [next])

/-- R14, R15: another code goes on as candidate up to its persistence, and is then accepted and decoded. -/
theorem State.takeCode_other {s : State} {t : TrunkNo} {code : LineCode} {k : Nat}
    (equipped : (s.trunk t).role ≠ .unequipped)
    (next : (s.trunk t).lcr.nextCandidate code = some { code := code, count := k }) : s.takeCode t code =
      if s.persistenceOf t ≤ k then (s.withAccepted t code).decodeLine t
      else s.withCandidate t (some { code := code, count := k }) := by
  have accepts : (s.trunk t).lcr.accepts (s.profileOf t) code = true ↔ s.persistenceOf t ≤ k := by
    simp [LineReceiver.accepts, next, State.persistenceOf]
  unfold State.takeCode
  rw [if_neg equipped]
  by_cases h : s.persistenceOf t ≤ k
  · rw [if_pos (accepts.mpr h), if_pos h]
    rfl
  · rw [if_neg (mt accepts.mp h), if_neg h]
    exact State.mapTrunk_congr _ _ (by rw [next])

/-- R14: a code that repeats a candidate is counted with it. -/
theorem State.takeCode_again {s : State} {t : TrunkNo} {code : LineCode} (k : Nat)
    (equipped : (s.trunk t).role ≠ .unequipped) (other : (s.trunk t).lcr.accepted ≠ some code) :
    (s.withCandidate t (some { code := code, count := k })).takeCode t code =
      if s.persistenceOf t ≤ k + 1 then (s.withAccepted t code).decodeLine t
      else s.withCandidate t (some { code := code, count := k + 1 }) := by
  have trunk : (s.withCandidate t (some { code := code, count := k })).trunk t =
      { s.trunk t with lcr := { (s.trunk t).lcr with candidate := some { code := code, count := k } } } :=
    s.mapTrunk_trunk t _
  have persistence : (s.withCandidate t (some { code := code, count := k })).persistenceOf t = s.persistenceOf t := by
    unfold State.persistenceOf State.profileOf
    rw [trunk]
    rfl
  rw [State.takeCode_other (k := k + 1) (by rw [trunk]; exact equipped)
    (by rw [trunk]; simp [LineReceiver.nextCandidate, other]), persistence]
  simp only [State.withCandidate, State.withAccepted, State.mapTrunk_mapTrunk]

/-- R14, R15: frames with another code than the accepted one, in a row. -/
theorem State.takeCode_repeat {s : State} {t : TrunkNo} {code : LineCode} (equipped : (s.trunk t).role ≠ .unequipped)
    (other : (s.trunk t).lcr.accepted ≠ some code) (fresh : (s.trunk t).lcr.candidate = none) (k : Nat)
    (hk : k < s.persistenceOf t) : Nat.repeat (fun x => x.takeCode t code) (k + 1) s =
      if s.persistenceOf t ≤ k + 1 then (s.withAccepted t code).decodeLine t
      else s.withCandidate t (some { code := code, count := k + 1 }) := by
  induction k with
  | zero =>
    have next : (s.trunk t).lcr.nextCandidate code = some { code := code, count := 1 } := by
      simp [LineReceiver.nextCandidate, other, fresh]
    exact State.takeCode_other equipped next
  | succ k ih =>
    rw [Nat.repeat, ih (by omega), if_neg (by omega)]
    exact State.takeCode_again _ equipped other

/-- Settles O11. -/
theorem lineCodeFilterAcceptsAtItsPersistence : Obligations.LineCodeFilterAcceptsAtItsPersistence := by
  unfold Obligations.LineCodeFilterAcceptsAtItsPersistence
  refine ⟨fun s t code k n equipped other fresh hn => ?_, fun s t code =>
    ⟨State.takeCode_unequipped code, State.takeCode_accepted⟩⟩
  rw [← State.persistenceOf_eq] at hn
  refine ⟨fun hk below => ?_, fun hk reached => ?_⟩
  · obtain ⟨j, rfl⟩ := Nat.exists_eq_add_one_of_ne_zero hk.ne'
    rw [State.takeCode_repeat equipped other fresh j (by omega), if_neg (by omega)]
    rfl
  · obtain ⟨j, rfl⟩ := Nat.exists_eq_add_one_of_ne_zero hk.ne'
    rw [State.takeCode_repeat equipped other fresh j (by omega), if_pos (by omega)]
    rfl

end Sys2Proof.Machine
end

section
/-! PROOFS. Hold start. -/

namespace Sys2Proof.Machine

/-! ### The measurements that a hold aborts -/

/-- R100: what a hold start does to one unit. -/
def State.abortMeasurement (s : State) (v : UnitNo) : State :=
  match (s.unit v).status with
  | .measuring t _ done => (s.reportMeasurement v t .abortedHold done).freeUnit true v
  | _ => s

theorem State.abortMeasurements_eq (s : State) :
    s.abortMeasurements = (List.finRange 8).foldl State.abortMeasurement s := rfl

theorem State.abortMeasurement_idle {s : State} {v : UnitNo} (h : ∀ k a d, (s.unit v).status ≠ .measuring k a d) :
    s.abortMeasurement v = s := by
  unfold State.abortMeasurement
  split
  · rename_i k a d e
    exact absurd e (h k a d)
  · rfl

theorem State.abortMeasurements_idle {s : State} (h : ∀ v k a d, (s.unit v).status ≠ .measuring k a d) :
    s.abortMeasurements = s := by
  rw [State.abortMeasurements_eq]
  exact List.foldlRecOn (motive := fun x => x = s) _ _ rfl fun x hx v _ => by
    rw [hx]
    exact State.abortMeasurement_idle (h v)

/-- R92, R100: in a hold a freed unit is handed on to no test, so with no call waiting it stays free. -/
theorem State.abortMeasurement_frees {s : State} {v : UnitNo} {k : TrunkNo} {a d : Nat} (hold : s.inHold = true)
    (calls : s.callQueue = []) (h : (s.unit v).status = .measuring k a d) : s.abortMeasurement v =
      (s.reportMeasurement v k .abortedHold d).mapUnit v fun _ => {} := by
  have stays : ∀ x : State, x.inHold = true → x.callQueue = [] → x.handOn v = x := by
    intro x hx hc
    rw [State.handOn, hc]
    dsimp only
    split
    · exact if_pos hx
    · rfl
  unfold State.abortMeasurement
  rw [h]
  exact stays _ (by simpa [State.inHold, State.reportMeasurement] using hold) (by simpa [State.reportMeasurement] using calls)

/-- R100: what the turns of some units leave at a hold start while no call waits: the queues and the trunks as they
were, each other unit as it was, and each measuring unit free with its report made. -/
structure State.Aborted (s u : State) (l : List UnitNo) : Prop where
  hwi : u.hwi = s.hwi
  calls : u.callQueue = []
  tests : u.testQueue = s.testQueue
  trunks : u.trunks = s.trunks
  others : ∀ v, v ∉ l → u.unit v = s.unit v
  freed : ∀ v ∈ l, ∀ k a d, (s.unit v).status = .measuring k a d → u.unit v = {} ∧
    u.reported (some k) (.testResult .abortedHold d
      (measurementFigures (s.unit v).energySum (s.unit v).powerSums.toList d))

theorem State.abortMeasurement_inner (s : State) (v : UnitNo) : Inner s (s.abortMeasurement v) := by
  unfold State.abortMeasurement
  split
  · exact (s.reportMeasurement_inner _ _ _ _).trans (State.freeUnit_inner _ _ _)
  · exact .refl s

/-- One unit's turn. -/
theorem State.abortMeasurement_aborted {s : State} (v : UnitNo) (hold : s.inHold = true) (calls : s.callQueue = []) :
    s.Aborted (s.abortMeasurement v) [v] := by
  by_cases measuring : ∃ k a d, (s.unit v).status = .measuring k a d
  · obtain ⟨k, a, d, h⟩ := measuring
    rw [State.abortMeasurement_frees hold calls h]
    have report : (s.reportMeasurement v k .abortedHold d).reported (some k) (.testResult .abortedHold d
        (measurementFigures (s.unit v).energySum (s.unit v).powerSums.toList d)) := State.submit_reported _ _ rfl
    refine ⟨?_, ?_, ?_, ?_, fun w hw => ?_, fun w hw k' a' d' h' => ?_⟩
    · simp [State.reportMeasurement]
    · simpa [State.reportMeasurement] using calls
    · simp [State.reportMeasurement]
    · simp [State.reportMeasurement]
    · rw [State.mapUnit_unit_ne _ _ (by simpa using hw)]
      simp [State.reportMeasurement]
    · rw [List.mem_singleton] at hw
      subst hw
      rw [h] at h'
      cases h'
      exact ⟨State.mapUnit_unit _ _ _, report⟩
  · have idle : ∀ k a d, (s.unit v).status ≠ .measuring k a d := fun k a d e => measuring ⟨k, a, d, e⟩
    rw [State.abortMeasurement_idle idle]
    refine ⟨rfl, calls, rfl, rfl, fun _ _ => rfl, fun w hw k a d e => ?_⟩
    rw [List.mem_singleton] at hw
    subst hw
    exact absurd e (idle k a d)

/-- The turns of distinct units, one after another. -/
theorem State.abortAll_aborted (l : List UnitNo) (hl : l.Nodup) {s : State} (hold : s.inHold = true)
    (calls : s.callQueue = []) : s.Aborted (l.foldl State.abortMeasurement s) l := by
  induction l generalizing s with
  | nil => exact ⟨rfl, calls, rfl, rfl, fun _ _ => rfl, fun v hv => absurd hv List.not_mem_nil⟩
  | cons v l ih =>
    obtain ⟨hv, hl⟩ := List.nodup_cons.mp hl
    have first := State.abortMeasurement_aborted v hold calls
    have rest := ih hl (s := s.abortMeasurement v) (by simpa [State.inHold, first.hwi] using hold) first.calls
    have later : Inner (s.abortMeasurement v) (l.foldl State.abortMeasurement (s.abortMeasurement v)) :=
      foldl_inner _ State.abortMeasurement_inner l _
    refine ⟨rest.hwi.trans first.hwi, rest.calls, rest.tests.trans first.tests, rest.trunks.trans first.trunks,
      fun w hw => ?_, fun w hw k a d h => ?_⟩
    · rw [List.mem_cons, not_or] at hw
      rw [List.foldl_cons, rest.others w hw.2, first.others w (by simpa using hw.1)]
    · by_cases e : w = v
      · subst e
        obtain ⟨free, report⟩ := first.freed w (by simp) k a d h
        exact ⟨(rest.others w hv).trans free, later.reported rfl report⟩
      · have same : (s.abortMeasurement v).unit w = s.unit w := first.others w (by simpa using e)
        have mem : w ∈ l := by simpa [e] using hw
        have done := rest.freed w mem k a d (by rw [same]; exact h)
        rw [same] at done
        exact done

/-! ### Entry to HOLD -/

/-- R10: the highway interface on entry to HOLD. -/
def Highway.held (h : Highway) (now : Stamp) : Highway :=
  { h with alignment := .hold, correct := 0, wrong := 0, holdStart := some now
           holdTimer := some { spent := 0, left := 100 * h.holdLimit } }

/-- R10, R198: the state on entry to HOLD, with its report and its capture made, before the blocks are told. -/
def State.entersHold (s : State) (cause : HoldCause) : State :=
  (({ s with hwi := s.hwi.held s.tmb.counter } : State).submit none (.holdStart cause)).capture .holdStart none

/-- R16, R77, R115: what the receivers, the decadic contexts and the units do at hold start. -/
def State.suspends (s : State) : State :=
  { s with
    trunks := s.trunks.map fun r =>
      { r with lcr := { r.lcr with candidate := none }, decadic := r.decadic.map DecadicContext.atHoldStart }
    units := s.units.map fun u => { u with recognition := u.recognition.atHoldStart } }

theorem State.startHold_eq (s : State) (cause : HoldCause) :
    s.startHold cause = (s.entersHold cause).suspends.abortMeasurements := rfl

theorem State.suspends_trunk (s : State) (t : TrunkNo) : s.suspends.trunk t = { s.trunk t with
    lcr := { (s.trunk t).lcr with candidate := none }
    decadic := (s.trunk t).decadic.map DecadicContext.atHoldStart } := get_map s.trunks _ t

theorem State.suspends_unit (s : State) (v : UnitNo) : s.suspends.unit v = { s.unit v with
    recognition := (s.unit v).recognition.atHoldStart } := get_map s.units _ v

/-- R10: entry to HOLD is an inner operation but for the highway interface. -/
theorem State.entersHold_inner (s : State) (cause : HoldCause) :
    Inner { s with hwi := s.hwi.held s.tmb.counter } (s.entersHold cause) :=
  (State.submit_inner _ _ _).trans (State.capture_inner _ _ _)

/-- R194, R198: an empty capture record takes the HOLD-START fault, unless the queue drops its report first. -/
theorem State.entersHold_fault {s : State} (cause : HoldCause) (empty : s.fault.held = none)
    (kept : (s.entersHold cause).rqa.sequenceLoss = false) : (s.entersHold cause).fault.held =
      some { kind := .holdStart, trunk := none, time := s.tmb.counter } := by
  unfold State.entersHold at kept ⊢
  rw [State.capture_rqa] at kept
  unfold State.submit at kept ⊢
  rw [if_neg (by simp [ReportBody.isCondition])] at kept ⊢
  by_cases room : s.rqa.entries.length < Config.reportRoom
  · rw [if_pos room]
    simp [State.capture, State.withReports, empty]
  · rw [if_neg room] at kept
    simp [State.capture_rqa, State.withReports, ReportQueue.admitSequenced, room, ReportQueue.judged] at kept

theorem State.entersHold_further {s : State} (cause : HoldCause) {f : CapturedFault} (held : s.fault.held = some f) :
    (s.entersHold cause).fault.held = some f ∧ (s.entersHold cause).fault.further = true :=
  State.capture_held _ _ _ ((State.submit_inner _ _ _).fault.held f held)

theorem State.entersHold_reported (s : State) (cause : HoldCause) :
    (s.entersHold cause).reported none (.holdStart cause) :=
  (State.capture_inner _ _ _).reported rfl (State.submit_reported _ _ rfl)

theorem State.entersHold_trunk (s : State) (cause : HoldCause) (t : TrunkNo) :
    (s.entersHold cause).trunk t = s.trunk t := by
  rw [State.entersHold, State.capture_trunk, State.submit_trunk]
  rfl

theorem State.entersHold_unit (s : State) (cause : HoldCause) (v : UnitNo) :
    (s.entersHold cause).unit v = s.unit v := by
  rw [State.entersHold, State.capture_unit, State.submit_unit]
  rfl

/-- R77: at hold start a digit in sending is marked as interrupted. -/
theorem DecadicContext.atHoldStart_sending (k : DecadicSender) : (DecadicContext.sending k).atHoldStart =
    .sending { k with interrupted := k.phase == .breaking || k.phase == .making } := by
  obtain ⟨phase, breaks, interrupted, timer⟩ := k
  cases phase <;> rfl

theorem DecadicContext.atHoldStart_other {c : DecadicContext} (h : ∀ k, c ≠ .sending k) : c.atHoldStart = c := by
  cases c with
  | sending k => exact absurd rfl (h k)
  | receiving k => rfl
  | watching k => rfl

/-! ### What a hold start leaves -/

theorem State.suspendedHold_inner (s : State) (cause : HoldCause) :
    Inner (s.entersHold cause).suspends (s.startHold cause) := State.abortMeasurements_inner _

theorem State.startHold_hwi (s : State) (cause : HoldCause) :
    (s.startHold cause).hwi = s.hwi.held s.tmb.counter :=
  (s.suspendedHold_inner cause).hwi.trans (s.entersHold_inner cause).hwi

theorem State.startHold_tmb (s : State) (cause : HoldCause) : (s.startHold cause).tmb = s.tmb :=
  (s.suspendedHold_inner cause).tmb.trans (s.entersHold_inner cause).tmb

/-- R10: a hold start leaves the settings, the counters, the link and the outputs. -/
theorem State.startHold_rest (s : State) (cause : HoldCause) : (s.startHold cause).profiles = s.profiles ∧
    (s.startHold cause).analysis = s.analysis ∧ (s.startHold cause).sequence = s.sequence ∧
    (s.startHold cause).traffic = s.traffic ∧ (s.startHold cause).clk = s.clk ∧
    (s.startHold cause).pending = s.pending ∧ (s.startHold cause).sgtx = s.sgtx ∧ (s.startHold cause).ltx = s.ltx := by
  have enter := s.entersHold_inner cause
  have told := s.suspendedHold_inner cause
  have pool : PoolWork (s.entersHold cause).suspends (s.startHold cause) := State.abortMeasurements_pool _
  have sequence : (s.entersHold cause).sequence = s.sequence := by simp [State.entersHold]
  have traffic : (s.entersHold cause).traffic = s.traffic := by simp [State.entersHold]
  exact ⟨told.profiles.trans enter.profiles, told.analysis.trans enter.analysis, pool.sequence.trans sequence,
    pool.traffic.trans traffic, told.clk.trans enter.clk, told.pending.trans enter.pending, told.sgtx.trans enter.sgtx,
    told.ltx.trans enter.ltx⟩

theorem State.startHold_reported (s : State) (cause : HoldCause) :
    (s.startHold cause).reported none (.holdStart cause) :=
  (s.suspendedHold_inner cause).reported rfl (s.entersHold_reported cause)

theorem State.startHold_fault {s : State} (cause : HoldCause) (empty : s.fault.held = none)
    (kept : (s.startHold cause).rqa.sequenceLoss = false) :
    (s.startHold cause).fault.held = some { kind := .holdStart, trunk := none, time := s.tmb.counter } := by
  have told := s.suspendedHold_inner cause
  refine told.fault.held _ (State.entersHold_fault cause empty ?_)
  by_contra lost
  have still : (s.startHold cause).rqa.sequenceLoss = true := told.reports.losses.1 (Bool.eq_true_of_not_eq_false lost)
  rw [kept] at still
  exact Bool.noConfusion still

theorem State.startHold_further {s : State} (cause : HoldCause) {f : CapturedFault} (held : s.fault.held = some f) :
    (s.startHold cause).fault.held = some f ∧ (s.startHold cause).fault.further = true := by
  obtain ⟨still, further⟩ := State.entersHold_further cause held
  have told := (s.suspendedHold_inner cause).fault
  exact ⟨told.held f still, told.further further (Option.isSome_iff_exists.mpr ⟨f, still⟩)⟩

/-- R16, R77: what a hold start changes of a trunk, but for a unit that the pool hands on. -/
theorem State.startHold_trunk (s : State) (cause : HoldCause) (t : TrunkNo) : (s.startHold cause).trunk t =
    { s.trunk t with
      lcr := { (s.trunk t).lcr with candidate := none }
      decadic := (s.trunk t).decadic.map DecadicContext.atHoldStart
      unit := ((s.startHold cause).trunk t).unit, tone := ((s.startHold cause).trunk t).tone } := by
  have pool : PoolWork (s.entersHold cause).suspends (s.startHold cause) := State.abortMeasurements_pool _
  have same := pool.trunks t
  rw [State.suspends_trunk, State.entersHold_trunk] at same
  exact same

theorem State.suspendedHold_queues (s : State) (cause : HoldCause) :
    (s.entersHold cause).suspends.callQueue = s.callQueue ∧ (s.entersHold cause).suspends.testQueue = s.testQueue := by
  constructor <;> simp [State.suspends, State.entersHold]

theorem State.suspendedHold_trunk (s : State) (cause : HoldCause) (t : TrunkNo) :
    ((s.entersHold cause).suspends.trunk t).unit = (s.trunk t).unit ∧
      ((s.entersHold cause).suspends.trunk t).tone = (s.trunk t).tone := by
  rw [State.suspends_trunk, State.entersHold_trunk]
  exact ⟨rfl, rfl⟩

theorem State.suspendedHold_unit (s : State) (cause : HoldCause) (v : UnitNo) :
    (s.entersHold cause).suspends.unit v = { s.unit v with
      recognition := { (s.unit v).recognition with previous := .cleared, count := 0 } } := by
  rw [State.suspends_unit, State.entersHold_unit]
  rfl

/-- R100: where no unit measures, there is nothing to abort. -/
theorem State.startHold_idle {s : State} (cause : HoldCause) (h : ∀ v k a d, (s.unit v).status ≠ .measuring k a d) :
    s.startHold cause = (s.entersHold cause).suspends := by
  rw [State.startHold_eq]
  exact State.abortMeasurements_idle fun v k a d => by rw [State.suspendedHold_unit]; exact h v k a d

/-- R100: where no call waits, every measuring unit becomes free. -/
theorem State.startHold_aborted {s : State} (cause : HoldCause) (h : s.callQueue = []) :
    (s.entersHold cause).suspends.Aborted (s.startHold cause) (List.finRange 8) := by
  have hold : (s.entersHold cause).suspends.inHold = true := by
    rw [State.inHold, show (s.entersHold cause).suspends.hwi = _ from (s.entersHold_inner cause).hwi]
    rfl
  exact State.abortAll_aborted _ (List.nodup_finRange 8) hold ((s.suspendedHold_queues cause).1.trans h)

/-- R8, R9: what starts a hold in ALIGNED, as one entry to HOLD. -/
theorem exec_startsHold {s : State} {c : Instr} {cause : HoldCause} (ha : s.hwi.alignment = .aligned)
    (hf : s.tmb.fsPresent = true) (hc : (c = .fsLoss ∧ cause = .fsLoss) ∨
      (∃ f, c = .receivedFrameEvent f ∧ frameWord f ≠ 0b01110010#8 ∧ s.hwi.wrong = 3 ∧ cause = .alignment)) :
    ∃ tmb, tmb.counter = s.tmb.counter ∧
      tmb = (if c = .fsLoss then { s.tmb with fsPresent := false, source := .crystal } else s.tmb) ∧
      exec c s = .next (({ s with tmb := tmb } : State).startHold cause) := by
  rcases hc with ⟨rfl, rfl⟩ | ⟨f, rfl, word, wrong, rfl⟩
  · refine ⟨{ s.tmb with fsPresent := false, source := .crystal }, rfl, (if_pos rfl).symm, ?_⟩
    rw [execFsLoss_present hf]
    simp only [State.alignmentFsLoss, ha]
  · refine ⟨s.tmb, rfl, (if_neg (by simp)).symm, ?_⟩
    rw [execReceivedFrame_wrong ha hf word, if_neg (by omega)]

/-- Settles O8. -/
theorem holdStartsOnFsLossOrTheFourthWrongWord : Obligations.HoldStartsOnFsLossOrTheFourthWrongWord := by
  unfold Obligations.HoldStartsOnFsLossOrTheFourthWrongWord
  intro s c cause ha hf hc
  obtain ⟨tmb, counter, htmb, answer⟩ := exec_startsHold ha hf hc
  generalize hx : ({ s with tmb := tmb } : State) = x at answer
  have xt : ∀ t, x.trunk t = s.trunk t := fun t => by rw [← hx]; rfl
  have xu : ∀ v, x.unit v = s.unit v := fun v => by rw [← hx]; rfl
  have now : x.tmb.counter = s.tmb.counter := by rw [← hx]; exact counter
  have trunk := x.startHold_trunk cause
  have unit := x.suspendedHold_unit cause
  have context := x.suspendedHold_trunk cause
  simp only [xt, xu] at trunk unit context
  obtain ⟨calls, tests⟩ := x.suspendedHold_queues cause
  refine ⟨_, answer, ?_, ?_, x.startHold_reported cause, fun empty kept => ?_, fun f held => ?_, fun t => ?_,
    fun t k sending => ?_, fun t other => ?_, fun idle => ?_, fun idle t => ?_, fun none_ => ?_, ?_⟩
  · rw [State.startHold_hwi, now, ← hx]
    rfl
  · rw [State.startHold_tmb, ← htmb, ← hx]
  · rw [← now]
    exact State.startHold_fault cause (by rw [← hx]; exact empty) kept
  · exact State.startHold_further cause (by rw [← hx]; exact held)
  · exact (trunk t).trans (by rw [trunk t])
  · rw [trunk, sending]
    exact congrArg some (DecadicContext.atHoldStart_sending k)
  · rw [trunk]
    cases e : (s.trunk t).decadic with
    | none => rfl
    | some d => exact congrArg some (DecadicContext.atHoldStart_other fun k hk => other k (by rw [e, hk]))
  · rw [State.startHold_idle cause (by simpa only [xu] using idle)]
    exact ⟨calls.trans (by rw [← hx]), tests.trans (by rw [← hx]), unit⟩
  · rw [State.startHold_idle cause (by simpa only [xu] using idle)]
    exact context t
  · have aborted := State.startHold_aborted (s := x) cause (by rw [← hx]; exact none_)
    refine ⟨aborted.calls, aborted.tests.trans (tests.trans (by rw [← hx])), fun t => ?_, fun v k a d measuring => ?_⟩
    · rw [State.trunk_congr aborted.trunks]
      exact context t
    · have freed := aborted.freed v (List.mem_finRange v) k a d (by rw [unit]; exact measuring)
      rw [unit] at freed
      exact freed
  · have rest := x.startHold_rest cause
    rw [← hx] at rest ⊢
    exact rest

end Sys2Proof.Machine
end

section
/-! PROOFS. The hold limit. -/

namespace Sys2Proof.Machine

/-! ### Register work and calls that end without handing a unit on -/

/-- R101: a unit given up at the hold limit is not handed on, so no other trunk changes. -/
theorem State.endTone_kept_trunk (s : State) (t u : TrunkNo) : (s.endTone false t).trunk u =
    if u = t then { s.trunk t with tone := none, unit := none } else s.trunk u := by
  unfold State.endTone State.freeUnit
  dsimp only
  split
  · exact State.mapTrunk_trunk_at _ _ _ _
  · rw [if_neg Bool.false_ne_true, State.mapUnit_trunk, State.mapTrunk_trunk_at]

/-- R40, R101: the end of register work at the hold limit. -/
theorem State.stopRegister_kept_trunk (s : State) (t u : TrunkNo) : (s.stopRegister false t).trunk u =
    if u = t then { s.trunk t with
      decadic := none, tone := none, unit := none, lcr := { (s.trunk t).lcr with mode := .line } }
    else s.trunk u := by
  unfold State.stopRegister State.setFilter State.leaveQueue
  simp only [State.mapTrunk_trunk_at, State.withCallQueue_trunk, State.endTone_kept_trunk, if_true]
  split_ifs <;> rfl

/-- R41, R101: the end of a call at the hold limit. -/
theorem State.endCall_kept_trunk (s : State) (t u : TrunkNo) (c : Cause) : (s.endCall false t c).trunk u =
    if u = t then { s.trunk t with
      decadic := none, tone := none, unit := none, lcr := { (s.trunk t).lcr with mode := .line }
      received := {}, send := {}, timer := none, callRef := none, standing := none, record := none }
    else s.trunk u := by
  unfold State.endCall
  simp only [State.closeRecord_trunk, State.mapTrunk_trunk_at, State.stopRegister_kept_trunk, if_true]
  split_ifs <;> rfl

theorem State.enterFailed_reported (s : State) (t : TrunkNo) (c : Cause) (r : Option CallRef) :
    (s.enterFailed t c r).reported (some t) (.trunkFailed c r) := by
  have made : ((((s.mapTrunk t fun r => { r with cause := some c }).enter t .failed).submit (some t)
      (.trunkFailed c r)).countFor t Traffic.addFailure).reported (some t) (.trunkFailed c r) :=
    (State.countFor_inner _ _ _ Traffic.addFailure_inner).reported rfl (State.submit_reported _ _ rfl)
  unfold State.enterFailed
  dsimp only
  split_ifs
  · exact made
  · exact (State.capture_inner _ _ _).reported rfl made

/-! ### A trunk that fails by the hold limit -/

/-- R69: a trunk in call before its own call ends: its register work and its link are gone. -/
def State.unlinksForHoldLimit (s : State) (t : TrunkNo) : State := (s.stopRegister false t).dissolveForHoldLimit t

theorem State.unlinksForHoldLimit_inner (s : State) (t : TrunkNo) : Inner s (s.unlinksForHoldLimit t) :=
  (s.stopRegister_inner false t).trans (State.dissolveForHoldLimit_inner _ t)

theorem State.failByHoldLimit_inCall {s : State} {t : TrunkNo} (h : (s.trunk t).state.inCall = true) :
    s.failByHoldLimit t =
      ((s.unlinksForHoldLimit t).endCall false t .holdLimit).enterFailed t .holdLimit (s.trunk t).callRef :=
  if_pos h

theorem State.failByHoldLimit_free {s : State} {t : TrunkNo} (h : (s.trunk t).state.inCall = false) :
    s.failByHoldLimit t = s := by
  unfold State.failByHoldLimit
  exact if_neg (by simp [h])

/-- R69, R166: the other trunk of a link loses the link alone, and every other trunk nothing. -/
theorem State.unlinksForHoldLimit_trunk (s : State) (t u : TrunkNo) (h : u ≠ t) :
    (s.unlinksForHoldLimit t).trunk u = s.trunk u ∨
      (s.unlinksForHoldLimit t).trunk u = { s.trunk u with link := none, linkRecord := none } := by
  have own : (s.stopRegister false t).trunk u = s.trunk u := by rw [State.stopRegister_kept_trunk, if_neg h]
  rw [State.unlinksForHoldLimit, State.dissolveForHoldLimit_trunk, own]
  split_ifs
  · exact .inr rfl
  · exact .inl rfl

/-- R40, R69: the trunk itself is in no link any more. -/
theorem State.unlinksForHoldLimit_self (s : State) (t : TrunkNo) : (s.unlinksForHoldLimit t).trunk t = { s.trunk t with
    decadic := none, tone := none, unit := none, lcr := { (s.trunk t).lcr with mode := .line }, link := none
    linkRecord := ((s.unlinksForHoldLimit t).trunk t).linkRecord } := by
  have own := s.stopRegister_kept_trunk t t
  rw [if_pos rfl] at own
  rw [State.unlinksForHoldLimit, State.dissolveForHoldLimit_trunk, own]
  split_ifs with linked
  · rfl
  · have none_ : (s.trunk t).link = none :=
      Option.not_isSome_iff_eq_none.mp fun e => linked (.inl ⟨rfl, e⟩)
    rw [← none_]

/-- What the turns of other trunks leave of a trunk at the hold limit: everything but its link, which they can only
dissolve. -/
structure State.Spared (t : TrunkNo) (a b : State) : Prop where
  inner : Inner a b
  trunk : b.trunk t = { a.trunk t with link := (b.trunk t).link, linkRecord := (b.trunk t).linkRecord }
  unlinked : (a.trunk t).link = none → (b.trunk t).link = none

theorem State.Spared.refl (t : TrunkNo) (s : State) : State.Spared t s s := ⟨.refl s, rfl, id⟩

theorem State.Spared.trans {t : TrunkNo} {a b c : State} (h : State.Spared t a b) (k : State.Spared t b c) :
    State.Spared t a c :=
  ⟨h.inner.trans k.inner, k.trunk.trans (by rw [h.trunk]), k.unlinked ∘ h.unlinked⟩

theorem State.failByHoldLimit_spared (s : State) {t k : TrunkNo} (h : k ≠ t) :
    State.Spared t s (s.failByHoldLimit k) := by
  by_cases call : (s.trunk k).state.inCall = true
  · have inner := s.failByHoldLimit_inner k
    rw [State.failByHoldLimit_inCall call] at inner ⊢
    have trunk : (((s.unlinksForHoldLimit k).endCall false k .holdLimit).enterFailed k .holdLimit
        (s.trunk k).callRef).trunk t = (s.unlinksForHoldLimit k).trunk t := by
      rw [State.enterFailed_trunk, if_neg (Ne.symm h), State.endCall_kept_trunk, if_neg (Ne.symm h)]
    rcases s.unlinksForHoldLimit_trunk k t (Ne.symm h) with e | e
    · exact ⟨inner, by rw [trunk, e], fun n => by rw [trunk, e]; exact n⟩
    · exact ⟨inner, by rw [trunk, e], fun _ => by rw [trunk, e]⟩
  · rw [State.failByHoldLimit_free (by simpa using call)]
    exact .refl t s

/-- R41, R42, R69: what its own turn leaves of a trunk in call: its record and its reports. -/
theorem State.failByHoldLimit_self {s : State} {t : TrunkNo} (call : (s.trunk t).state.inCall = true) :
    (s.failByHoldLimit t).trunk t = { s.trunk t with
      state := .failed, cause := some .holdLimit
      sentCode := sentCodeOf (s.profiles.get (s.trunk t).profile).codes (s.trunk t).role .failed
      timer := none, unit := none, link := none, linkRecord := ((s.failByHoldLimit t).trunk t).linkRecord
      callRef := none, record := none, lcr := { (s.trunk t).lcr with mode := .line }, decadic := none, tone := none
      received := {}, send := {}, standing := none } ∧
    (∀ r, (s.trunk t).record = some r → (s.failByHoldLimit t).reported (some t)
      (.released { record := r, releaseTime := s.tmb.counter, cause := .holdLimit })) ∧
    (s.failByHoldLimit t).reported (some t) (.trunkFailed .holdLimit (s.trunk t).callRef) := by
  have self := s.unlinksForHoldLimit_self t
  have unlinked := s.unlinksForHoldLimit_inner t
  have ended := unlinked.trans ((s.unlinksForHoldLimit t).endCall_inner false t .holdLimit)
  have profile : ((s.unlinksForHoldLimit t).endCall false t .holdLimit).profileOf t =
      s.profiles.get (s.trunk t).profile := by
    rw [State.profileOf, ended.profiles, (ended.trunks t).kept.2.1]
  rw [State.failByHoldLimit_inCall call]
  refine ⟨?_, fun r hr => ?_, State.enterFailed_reported _ _ _ _⟩
  · rw [State.enterFailed_trunk, if_pos rfl, profile, State.endCall_kept_trunk, if_pos rfl, self]
  · rw [← unlinked.tmb]
    exact (State.enterFailed_inner _ _ _ _).reported rfl
      (State.endCall_reported _ _ _ _ (by rw [self]; exact hr))

theorem State.failByHoldLimit_sequence (s : State) (t : TrunkNo) : (s.failByHoldLimit t).sequence = s.sequence := by
  have dissolved : ∀ x : State, (x.dissolveForHoldLimit t).sequence = x.sequence := by
    intro x
    unfold State.dissolveForHoldLimit State.dissolve
    split <;> simp
  have failed : ∀ (x : State) r, (x.enterFailed t .holdLimit r).sequence = x.sequence := by
    intro x r
    simp [State.enterFailed, State.enter]
  by_cases call : (s.trunk t).state.inCall = true
  · rw [State.failByHoldLimit_inCall call, failed, (State.endCall_misc _ _ _ _).2, State.unlinksForHoldLimit,
      dissolved, (State.stopRegister_misc _ _ _).2.1]
  · rw [State.failByHoldLimit_free (by simpa using call)]

/-! ### The hold limit -/

/-- R12, R17: the state as the trunks find it when the hold limit has expired. -/
def State.losesAlignment (s : State) : State :=
  let s := s.capture .holdLimit none
  { s with
    trunks := s.trunks.map fun r => { r with lcr := { r.lcr with accepted := none, candidate := none } }
    hwi := { s.hwi with
      alignment := .searching, trial := false, correct := 0, wrong := 0, holdStart := none, holdTimer := none } }

theorem State.hitHoldLimit_eq (s : State) :
    s.hitHoldLimit = (s.losesAlignment.forTrunks State.failByHoldLimit).serveTests := rfl

theorem State.losesAlignment_trunk (s : State) (t : TrunkNo) : s.losesAlignment.trunk t = { s.trunk t with
    lcr := { (s.trunk t).lcr with accepted := none, candidate := none } } := by
  have same : (s.capture .holdLimit none).trunk t = s.trunk t := by simp
  rw [← same]
  exact get_map (s.capture .holdLimit none).trunks _ t

theorem State.hitHoldLimit_inner (s : State) : Inner s.losesAlignment s.hitHoldLimit :=
  (State.forTrunks_inner _ _ State.failByHoldLimit_inner).trans (State.serveTests_inner _)

theorem State.hitHoldLimit_sequence (s : State) : s.hitHoldLimit.sequence = s.sequence := by
  have loop : (s.losesAlignment.forTrunks State.failByHoldLimit).sequence = s.losesAlignment.sequence :=
    List.foldlRecOn (motive := fun x : State => x.sequence = s.losesAlignment.sequence) _ _ rfl fun (x : State) hx t _ =>
      (x.failByHoldLimit_sequence t).trans hx
  rw [State.hitHoldLimit_eq, (State.serveTests_pool _).sequence, loop]
  exact State.capture_sequence _ _ _

/-- R12: an empty capture record takes the HOLD-LIMIT fault. -/
theorem State.hitHoldLimit_fault {s : State} (empty : s.fault.held = none) :
    s.hitHoldLimit.fault.held = some { kind := .holdLimit, trunk := none, time := s.tmb.counter } :=
  s.hitHoldLimit_inner.fault.held _ (by simp [State.losesAlignment, State.capture, empty])

theorem State.hitHoldLimit_further {s : State} {f : CapturedFault} (held : s.fault.held = some f) :
    s.hitHoldLimit.fault.held = some f ∧ s.hitHoldLimit.fault.further = true := by
  obtain ⟨still, further⟩ := s.capture_held .holdLimit none held
  have inner := s.hitHoldLimit_inner.fault
  exact ⟨inner.held f still, inner.further further (Option.isSome_iff_exists.mpr ⟨f, still⟩)⟩

/-- The expiry seen from one trunk: the turns before its own, its own turn, and the turns after it. -/
theorem State.hitHoldLimit_turns (s : State) (t : TrunkNo) : ∃ m, State.Spared t s.losesAlignment m ∧
    State.Spared t (m.failByHoldLimit t) s.hitHoldLimit := by
  obtain ⟨m, before, later⟩ := State.forTrunks_split (R := State.Spared t) (.refl t) (fun _ _ _ => .trans) t
    (fun x k hk => x.failByHoldLimit_spared hk) s.losesAlignment
  have served : State.Spared t (s.losesAlignment.forTrunks State.failByHoldLimit) s.hitHoldLimit := by
    have trunk := State.serveTests_trunk (s.losesAlignment.forTrunks State.failByHoldLimit) t
    rw [State.hitHoldLimit_eq]
    exact ⟨State.serveTests_inner _, by rw [trunk], fun n => by rw [trunk]; exact n⟩
  exact ⟨m, before, later.trans served⟩

/-- R12: the expiry is taken where it is due. -/
theorem execHoldLimitExpiry_due {s : State} {k : HoldTimer} (ha : s.hwi.alignment = .hold)
    (hk : s.hwi.holdTimer = some k) (due : k.left = 0) : exec .holdLimitExpiry s = .next s.hitHoldLimit :=
  if_pos ⟨by simp [State.inHold, ha], by simp [Highway.limitDue, timerDue, hk, due]⟩

/-- Settles O14. -/
theorem holdLimitFailsEveryTrunkInCall : Obligations.HoldLimitFailsEveryTrunkInCall := by
  unfold Obligations.HoldLimitFailsEveryTrunkInCall
  intro s k ha hk due
  have inner := s.hitHoldLimit_inner
  have now : s.losesAlignment.tmb = s.tmb := s.capture_tmb _ _
  have profiles : s.losesAlignment.profiles = s.profiles := s.capture_profiles _ _
  refine ⟨_, execHoldLimitExpiry_due ha hk due, inner.hwi.trans ?_, inner.tmb.trans now,
    inner.clk.trans (s.capture_clk _ _), inner.profiles.trans profiles, inner.analysis.trans (s.capture_analysis _ _),
    s.hitHoldLimit_sequence, State.hitHoldLimit_fault, fun x => State.hitHoldLimit_further, fun t => ?_⟩
  · rw [State.losesAlignment, State.capture_hwi]
  obtain ⟨m, before, later⟩ := s.hitHoldLimit_turns t
  have start := s.losesAlignment_trunk t
  obtain ⟨-, -, -, -, -, accepted, candidate⟩ := (inner.trunks t).kept
  rw [start] at accepted candidate
  refine ⟨accepted, candidate, fun free => ?_, fun call => ?_⟩
  · rw [State.failByHoldLimit_free (by rw [before.trunk, start]; exact free)] at later
    rw [later.trunk, before.trunk, start]
    exact ⟨rfl, rfl, rfl, rfl⟩
  · obtain ⟨trunk, released, failed⟩ := State.failByHoldLimit_self (s := m) (t := t)
      (by rw [before.trunk, start]; exact call)
    have link : (s.hitHoldLimit.trunk t).link = none := later.unlinked (by rw [trunk])
    have mt : (m.trunk t).record = (s.trunk t).record ∧ (m.trunk t).callRef = (s.trunk t).callRef ∧
        (m.trunk t).profile = (s.trunk t).profile ∧ (m.trunk t).role = (s.trunk t).role := by
      rw [before.trunk, start]; exact ⟨rfl, rfl, rfl, rfl⟩
    obtain ⟨mrecord, mref, mprofile, mrole⟩ := mt
    have sent : (s.hitHoldLimit.trunk t).sentCode =
        sentCodeOf (s.profiles.get (s.trunk t).profile).codes (s.trunk t).role .failed := by
      rw [later.trunk, trunk, before.inner.profiles, profiles, mprofile, mrole]
    rw [before.inner.tmb, now, mrecord] at released
    rw [mref] at failed
    have fields := later.trunk
    rw [trunk] at fields
    refine ⟨?_, ?_, sent, ?_, ?_, link, ?_, ?_, ?_, ?_, ?_, ?_, ?_, fun r hr => later.inner.reported rfl (released r hr),
      later.inner.reported rfl failed⟩ <;> rw [fields]

end Sys2Proof.Machine
end

section
/-! PROOFS. Hold end. -/

namespace Sys2Proof.Machine

/-! ### The test requests that wait at hold end -/

/-- R101: what the pool does with one unit at hold end. -/
def State.serveTest (s : State) (v : UnitNo) : State :=
  match s.callQueue, s.testQueue with
  | [], r :: rest => if (s.unit v).status = .free then (s.withTestQueue rest).grantTest v r.trunk r.blocks else s
  | _, _ => s

theorem State.serveTests_eq (s : State) : s.serveTests = (List.finRange 8).foldl State.serveTest s := rfl

theorem State.serveTest_calls {s : State} (v : UnitNo) (h : s.callQueue ≠ []) : s.serveTest v = s := by
  unfold State.serveTest
  split
  · rename_i e _
    exact absurd e h
  · rfl

theorem State.serveTest_none {s : State} (v : UnitNo) (h : s.testQueue = []) : s.serveTest v = s := by
  unfold State.serveTest
  rw [h]
  split
  · rename_i e
    cases e
  · rfl

theorem State.serveTest_busy {s : State} {v : UnitNo} (h : (s.unit v).status ≠ .free) : s.serveTest v = s := by
  unfold State.serveTest
  split
  · exact if_neg h
  · rfl

theorem State.serveTest_grants {s : State} {v : UnitNo} {r : TestWait} {rest : List TestWait} (calls : s.callQueue = [])
    (tests : s.testQueue = r :: rest) (free : (s.unit v).status = .free) :
    s.serveTest v = (s.withTestQueue rest).grantTest v r.trunk r.blocks := by
  unfold State.serveTest
  rw [calls, tests]
  exact if_pos free

theorem State.serveTests_calls {s : State} (h : s.callQueue ≠ []) : s.serveTests = s := by
  rw [State.serveTests_eq]
  exact List.foldlRecOn (motive := fun x => x = s) _ _ rfl fun x hx v _ => by
    rw [hx]
    exact State.serveTest_calls v h

/-- The free units of a list, in its order. -/
def State.freeOf (s : State) (l : List UnitNo) : List UnitNo := l.filter fun v => (s.unit v).status == .free

/-- R101: what the turns of some units leave of the pool at hold end: the waiting tests go to the free units in
order. -/
structure State.Served (s u : State) (l : List UnitNo) : Prop where
  tests : u.testQueue = s.testQueue.drop (s.freeOf l).length
  granted : ∀ (k : Nat) (v : UnitNo) (r : TestWait), (s.freeOf l)[k]? = some v → s.testQueue[k]? = some r →
    u.unit v = { status := .measuring r.trunk r.blocks 0 }
  spare : ∀ (k : Nat) (v : UnitNo), (s.freeOf l)[k]? = some v → s.testQueue[k]? = none → u.unit v = s.unit v
  others : ∀ v, v ∉ s.freeOf l → u.unit v = s.unit v

theorem State.freeOf_cons_free {s : State} {v : UnitNo} (l : List UnitNo) (h : (s.unit v).status = .free) :
    s.freeOf (v :: l) = v :: s.freeOf l := List.filter_cons_of_pos (by simp [h])

theorem State.freeOf_cons_busy {s : State} {v : UnitNo} (l : List UnitNo) (h : (s.unit v).status ≠ .free) :
    s.freeOf (v :: l) = s.freeOf l := List.filter_cons_of_neg (by simpa using h)

theorem State.freeOf_congr {s u : State} {l : List UnitNo} (h : ∀ v ∈ l, u.unit v = s.unit v) :
    u.freeOf l = s.freeOf l := List.filter_congr fun v hv => by rw [h v hv]

theorem State.Served.refl_of_none {s : State} (l : List UnitNo) (h : s.testQueue = []) : s.Served s l :=
  ⟨by simp [h], fun _ _ _ _ e => by simp [h] at e, fun _ _ _ _ => rfl, fun _ _ => rfl⟩

theorem State.serveAll_served (l : List UnitNo) (hl : l.Nodup) {s : State} (calls : s.callQueue = []) :
    s.Served (l.foldl State.serveTest s) l := by
  induction l generalizing s with
  | nil => exact ⟨rfl, fun _ _ _ e => by simp [State.freeOf] at e, fun _ _ _ _ => rfl, fun _ _ => rfl⟩
  | cons v l ih =>
    obtain ⟨hv, hl⟩ := List.nodup_cons.mp hl
    rw [List.foldl_cons]
    by_cases free : (s.unit v).status = .free
    · rcases tests : s.testQueue with _ | ⟨r, rest⟩
      · rw [List.foldlRecOn (motive := fun x => x = s) l State.serveTest (State.serveTest_none v tests)
          fun x hx w _ => by rw [hx]; exact State.serveTest_none w tests]
        exact .refl_of_none _ tests
      · rw [State.serveTest_grants calls tests free]
        have later := ih hl (s := (s.withTestQueue rest).grantTest v r.trunk r.blocks) calls
        have others : ∀ w, w ≠ v → ((s.withTestQueue rest).grantTest v r.trunk r.blocks).unit w = s.unit w :=
          fun w hw => State.mapUnit_unit_ne _ _ hw
        have same : ((s.withTestQueue rest).grantTest v r.trunk r.blocks).freeOf l = s.freeOf l :=
          State.freeOf_congr fun w hw => others w fun e => hv (e ▸ hw)
        have notFree : v ∉ s.freeOf l := fun h => hv (List.mem_filter.mp h).1
        have own : ((s.withTestQueue rest).grantTest v r.trunk r.blocks).unit v =
            { status := .measuring r.trunk r.blocks 0 } := State.mapUnit_unit _ _ _
        obtain ⟨queue, granted, spare, rest_⟩ := later
        rw [same] at queue granted spare rest_
        have queue' : ((s.withTestQueue rest).grantTest v r.trunk r.blocks).testQueue = rest := rfl
        rw [queue'] at queue granted spare
        refine ⟨?_, fun k w q hw hq => ?_, fun k w hw hq => ?_, fun w hw => ?_⟩
        · rw [State.freeOf_cons_free l free, tests, queue, List.length_cons, List.drop_succ_cons]
        · rw [State.freeOf_cons_free l free] at hw
          rw [tests] at hq
          cases k with
          | zero =>
            cases hw; cases hq
            rw [rest_ v notFree, own]
          | succ k => exact granted k w q hw hq
        · rw [State.freeOf_cons_free l free] at hw
          rw [tests] at hq
          cases k with
          | zero => cases hq
          | succ k =>
            have mem : w ∈ s.freeOf l := List.mem_of_getElem? hw
            rw [spare k w hw hq, others w fun e => notFree (e ▸ mem)]
        · rw [State.freeOf_cons_free l free, List.mem_cons, not_or] at hw
          rw [rest_ w hw.2, others w hw.1]
    · rw [State.serveTest_busy free]
      have later := ih hl calls
      exact ⟨by rw [State.freeOf_cons_busy l free]; exact later.tests,
        by rw [State.freeOf_cons_busy l free]; exact later.granted,
        by rw [State.freeOf_cons_busy l free]; exact later.spare,
        by rw [State.freeOf_cons_busy l free]; exact later.others⟩

theorem State.serveTests_served {s : State} (calls : s.callQueue = []) : s.Served s.serveTests (List.finRange 8) :=
  State.serveAll_served _ (List.nodup_finRange 8) calls

/-- What the pool does at hold end is told by the pool that it finds. -/
theorem State.Served.of_pool {s x u : State} {l : List UnitNo} (units : x.units = s.units)
    (tests : x.testQueue = s.testQueue) (h : x.Served u l) : s.Served u l := by
  have unit : ∀ v, x.unit v = s.unit v := State.unit_congr units
  have free : x.freeOf l = s.freeOf l := State.freeOf_congr fun v _ => unit v
  obtain ⟨queue, granted, spare, others⟩ := h
  simp only [free, tests, unit] at queue granted spare others
  exact ⟨queue, granted, spare, others⟩

theorem State.serveTest_rest (s : State) (v : UnitNo) :
    { s.serveTest v with units := s.units, testQueue := s.testQueue } = s := by
  unfold State.serveTest
  split
  · split_ifs <;> rfl
  · rfl

/-- R101: hold end for the pool changes units and test requests alone. -/
theorem State.serveTests_rest (s : State) :
    { s.serveTests with units := s.units, testQueue := s.testQueue } = s := by
  rw [State.serveTests_eq]
  exact List.foldlRecOn
    (motive := fun x : State => ({ x with units := s.units, testQueue := s.testQueue } : State) = s) _ _ rfl
    fun (x : State) hx v _ => by
      have turn := congrArg (fun y : State => ({ y with units := s.units, testQueue := s.testQueue } : State))
        (x.serveTest_rest v)
      exact turn.trans hx

/-! ### The decadic engine at hold end -/

/-- R77, R87: what hold end makes of a trunk's record. -/
def Trunk.atHoldEnd (profiles : Vector Profile 4) (r : Trunk) : Trunk :=
  match r.decadic with
  | some (.sending c) =>
    if c.interrupted then
      { r with
        sentCode := (profiles.get r.profile).codes.fSeize
        decadic := some (.sending
          { c with phase := .pause, interrupted := false, timer := some (profiles.get r.profile).sendPause }) }
    else if c.phase = .waiting ∧ c.timer = none then
      { r with decadic := some (.sending { c with phase := .pause, timer := some (profiles.get r.profile).sendPause }) }
    else r
  | some (.receiving c) =>
    if c.phase = .counting then { r with decadic := some (.receiving { c with phase := .rejecting, pulses := 0 }) } else r
  | _ => r

theorem State.mapTrunk_fixed {s : State} {t : TrunkNo} {f : Trunk → Trunk} (h : f (s.trunk t) = s.trunk t) :
    s.mapTrunk t f = s := by
  have same : s.trunks.set t (s.trunk t) = s.trunks := by simp [State.trunk, Vector.get_eq_getElem]
  rw [State.mapTrunk, h, same]

theorem State.decadicHoldEnd_eq (s : State) (t : TrunkNo) :
    s.decadicHoldEnd t = s.mapTrunk t (Trunk.atHoldEnd s.profiles) := by
  rcases d : (s.trunk t).decadic with _ | ⟨c | c | w⟩
  · have fixed : (s.trunk t).atHoldEnd s.profiles = s.trunk t := by simp [Trunk.atHoldEnd, d]
    rw [State.mapTrunk_fixed fixed]
    simp [State.decadicHoldEnd, d]
  · unfold State.decadicHoldEnd
    rw [d]
    dsimp only
    by_cases interrupted : c.interrupted = true
    · rw [if_pos interrupted, State.sendSignal, State.setSender, State.mapTrunk_mapTrunk]
      exact State.mapTrunk_congr _ _ (by
        simp [Trunk.atHoldEnd, d, interrupted, State.profileOf, SendCodes.of])
    · rw [if_neg interrupted]
      by_cases waits : c.phase = .waiting ∧ c.timer = none
      · rw [if_pos waits]
        exact State.mapTrunk_congr _ _ (by
          simp [Trunk.atHoldEnd, d, interrupted, waits, State.profileOf])
      · rw [if_neg waits, State.mapTrunk_fixed (by simp [Trunk.atHoldEnd, d, interrupted]; tauto)]
  · unfold State.decadicHoldEnd
    rw [d]
    dsimp only
    by_cases counting : c.phase = .counting
    · rw [if_pos counting]
      exact State.mapTrunk_congr _ _ (by simp [Trunk.atHoldEnd, d, counting])
    · rw [if_neg counting, State.mapTrunk_fixed (by simp [Trunk.atHoldEnd, d, counting])]
  · have fixed : (s.trunk t).atHoldEnd s.profiles = s.trunk t := by simp [Trunk.atHoldEnd, d]
    rw [State.mapTrunk_fixed fixed]
    simp [State.decadicHoldEnd, d]

theorem State.decadicHoldEnds_eq (s : State) :
    s.forTrunks State.decadicHoldEnd = s.withTrunks fun t => (s.trunk t).atHoldEnd s.profiles :=
  s.forTrunks_eq_withTrunks _ (fun _ => Trunk.atHoldEnd s.profiles) fun r t _ => by
    rw [State.decadicHoldEnd_eq, State.withTrunks_profiles]

/-- Hold end changes no more of a trunk than its sent code and its decadic context. -/
theorem Trunk.atHoldEnd_rest (p : Vector Profile 4) (r : Trunk) : r.atHoldEnd p =
    { r with sentCode := (r.atHoldEnd p).sentCode, decadic := (r.atHoldEnd p).decadic } := by
  unfold Trunk.atHoldEnd
  split
  · split_ifs <;> rfl
  · split_ifs <;> rfl
  · rfl

/-! ### A frame that brings no new code -/

/-- R14, R17: what a frame with the accepted code makes of a trunk's record. -/
def Trunk.withoutCandidate (r : Trunk) : Trunk :=
  { r with lcr := { r.lcr with candidate := if r.role = .unequipped then r.lcr.candidate else none } }

theorem State.takeCode_known {s : State} {t : TrunkNo} {code : LineCode}
    (known : (s.trunk t).role = .unequipped ∨ (s.trunk t).lcr.accepted = some code) :
    s.takeCode t code = s.mapTrunk t Trunk.withoutCandidate := by
  by_cases equipped : (s.trunk t).role = .unequipped
  · rw [State.takeCode_unequipped code equipped, State.mapTrunk_fixed]
    rw [Trunk.withoutCandidate, if_pos equipped]
  · rw [State.takeCode_accepted equipped (known.resolve_left equipped)]
    exact State.mapTrunk_congr _ _ (by simp [Trunk.withoutCandidate, equipped])

theorem State.takeFrame_known {s : State} {f : SigFrame}
    (known : ∀ t, (s.trunk t).role = .unequipped ∨ (s.trunk t).lcr.accepted = some (frameCode f t)) :
    s.takeFrame f = s.withTrunks fun t => (s.trunk t).withoutCandidate :=
  s.forTrunks_eq_withTrunks _ (fun _ => Trunk.withoutCandidate) fun r t hr =>
    State.takeCode_known (by rw [State.withTrunks_trunk, hr]; exact known t)

/-! ### What a taken frame keeps -/

/-- The time base and the highway interface stand, and so does every sequenced report. -/
structure State.KeepsReports (a b : State) : Prop where
  tmb : b.tmb = a.tmb
  hwi : b.hwi = a.hwi
  reported : ∀ t x, x.isCondition = false → a.reported t x → b.reported t x

theorem State.KeepsReports.trans {a b c : State} (h : a.KeepsReports b) (k : b.KeepsReports c) : a.KeepsReports c :=
  ⟨k.tmb.trans h.tmb, k.hwi.trans h.hwi, fun t x hx hr => k.reported t x hx (h.reported t x hx hr)⟩

theorem Inner.keepsReports {a b : State} (h : Inner a b) : a.KeepsReports b :=
  ⟨h.tmb, h.hwi, fun _ _ hx => h.reported hx⟩

theorem State.mapTrunk_keepsReports (s : State) (t : TrunkNo) (f : Trunk → Trunk) : s.KeepsReports (s.mapTrunk t f) :=
  ⟨rfl, rfl, fun _ _ _ h => h⟩

theorem State.takeCode_keepsReports (s : State) (t : TrunkNo) (code : LineCode) :
    s.KeepsReports (s.takeCode t code) := by
  unfold State.takeCode
  dsimp only
  split_ifs
  · exact (Inner.refl s).keepsReports
  · exact (s.mapTrunk_keepsReports t _).trans (State.decodeLine_inner _ t).keepsReports
  · exact s.mapTrunk_keepsReports t _

theorem State.takeFrame_keepsReports (s : State) (f : SigFrame) : s.KeepsReports (s.takeFrame f) :=
  List.foldlRecOn (motive := s.KeepsReports) _ _ (Inner.refl s).keepsReports
    fun (x : State) hx t _ => hx.trans (x.takeCode_keepsReports t _)

/-! ### The end of a hold -/

/-- R11: the highway interface after a hold. -/
def Highway.resumed (h : Highway) : Highway :=
  { h with alignment := .aligned, correct := 0, wrong := 0, holdStart := none, holdTimer := none }

/-- R11: the state with the HOLD-END report made, before the blocks are told. -/
def State.leavesHold (s : State) (start : Stamp) : State :=
  ({ s with hwi := s.hwi.resumed } : State).submit none (.holdEnd (s.tmb.counter - start))

theorem State.endHold_loops {s : State} {start : Stamp} (h : s.hwi.holdStart = some start) :
    s.endHold = ((s.leavesHold start).forTrunks State.decadicHoldEnd).serveTests := by
  unfold State.endHold
  rw [h]
  rfl

theorem State.endHold_eq {s : State} {start : Stamp} (h : s.hwi.holdStart = some start) :
    s.endHold = ((s.leavesHold start).withTrunks fun t => (s.trunk t).atHoldEnd s.profiles).serveTests := by
  have trunk : ∀ t, (s.leavesHold start).trunk t = s.trunk t := fun t => State.submit_trunk _ _ _ t
  have profiles : (s.leavesHold start).profiles = s.profiles := State.submit_profiles _ _ _
  rw [State.endHold_loops h, State.decadicHoldEnds_eq, profiles]
  simp only [trunk]

/-- R101: hold end where the pool finds the given records. -/
theorem State.endHold_trunk {s : State} {start : Stamp} (h : s.hwi.holdStart = some start) (t : TrunkNo) :
    s.endHold.trunk t = (s.trunk t).atHoldEnd s.profiles := by
  rw [State.endHold_eq h, State.serveTests_trunk, State.withTrunks_trunk]

theorem State.endHold_keepsReports (s : State) {start : Stamp} (h : s.hwi.holdStart = some start) :
    (s.leavesHold start).KeepsReports s.endHold := by
  have inner : Inner (s.leavesHold start) ((s.leavesHold start).forTrunks State.decadicHoldEnd).serveTests :=
    (State.forTrunks_inner _ _ State.decadicHoldEnd_inner).trans (State.serveTests_inner _)
  rw [State.endHold_loops h]
  exact inner.keepsReports

/-- R14: a frame without a new code after the hold. -/
theorem State.endHold_takeFrame {s : State} {start : Stamp} {f : SigFrame} (h : s.hwi.holdStart = some start)
    (known : ∀ t, (s.trunk t).role = .unequipped ∨ (s.trunk t).lcr.accepted = some (frameCode f t)) :
    s.endHold.takeFrame f = s.endHold.withTrunks fun t => ((s.trunk t).atHoldEnd s.profiles).withoutCandidate := by
  rw [State.takeFrame_known fun t => ?_]
  · simp only [State.endHold_trunk h]
  · rw [State.endHold_trunk h, Trunk.atHoldEnd_rest]
    exact known t

theorem State.leavesHold_reports (s : State) (start : Stamp) :
    (s.leavesHold start).rqa = (s.submit none (.holdEnd (s.tmb.counter - start))).rqa ∧
      (s.leavesHold start).fault = (s.submit none (.holdEnd (s.tmb.counter - start))).fault := by
  have sequenced : ¬ (ReportBody.holdEnd (s.tmb.counter - start)).isCondition = true := Bool.false_ne_true
  unfold State.leavesHold State.submit
  rw [if_neg sequenced, if_neg sequenced]
  dsimp only
  split_ifs
  · exact ⟨rfl, rfl⟩
  · rcases held : s.fault.held <;> simp [State.capture, State.withReports, held]

/-- R11, R101: the end of a hold leaves the settings, the counters, the link and the outputs. -/
theorem State.endHold_rest {s : State} {start : Stamp} (h : s.hwi.holdStart = some start) :
    s.endHold.profiles = s.profiles ∧ s.endHold.analysis = s.analysis ∧ s.endHold.sequence = s.sequence ∧
      s.endHold.traffic = s.traffic ∧ s.endHold.clk = s.clk ∧ s.endHold.pending = s.pending ∧
      s.endHold.sgtx = s.sgtx ∧ s.endHold.ltx = s.ltx ∧
      s.endHold.rqa = (s.submit none (.holdEnd (s.tmb.counter - start))).rqa ∧
      s.endHold.fault = (s.submit none (.holdEnd (s.tmb.counter - start))).fault := by
  obtain ⟨rqa, fault⟩ := s.leavesHold_reports start
  rw [State.endHold_eq h, ← rqa, ← fault]
  generalize hx : (s.leavesHold start).withTrunks _ = x
  have rest := x.serveTests_rest
  refine ⟨(congrArg State.profiles rest).trans ?_, (congrArg State.analysis rest).trans ?_,
    (congrArg State.sequence rest).trans ?_, (congrArg State.traffic rest).trans ?_, (congrArg State.clk rest).trans ?_,
    (congrArg State.pending rest).trans ?_, (congrArg State.sgtx rest).trans ?_, (congrArg State.ltx rest).trans ?_,
    (congrArg State.rqa rest).trans ?_, (congrArg State.fault rest).trans ?_⟩ <;> simp [← hx, State.leavesHold]

/-- R101: the pool at the end of a hold. -/
theorem State.endHold_pool {s : State} {start : Stamp} (h : s.hwi.holdStart = some start) :
    s.endHold.callQueue = s.callQueue ∧
    (s.callQueue ≠ [] → s.endHold.units = s.units ∧ s.endHold.testQueue = s.testQueue) ∧
    (s.callQueue = [] → s.Served s.endHold (List.finRange 8)) := by
  rw [State.endHold_eq h]
  generalize hx : (s.leavesHold start).withTrunks _ = x
  have calls : x.callQueue = s.callQueue := by simp [← hx, State.leavesHold]
  have tests : x.testQueue = s.testQueue := by simp [← hx, State.leavesHold]
  have units : x.units = s.units := by simp [← hx, State.leavesHold]
  refine ⟨(congrArg State.callQueue x.serveTests_rest).trans calls, fun waiting => ?_, fun empty => ?_⟩
  · rw [State.serveTests_calls (calls ▸ waiting)]
    exact ⟨units, tests⟩
  · exact (State.serveTests_served (calls.trans empty)).of_pool units tests

/-- The third correct word in HOLD. -/
theorem execHoldAlignmentWord_third {s : State} {f : SigFrame} (ha : s.hwi.alignment = .hold)
    (hf : s.tmb.fsPresent = true) (word : frameWord f = 0b01110010#8) (third : s.hwi.correct = 2) :
    exec (.holdAlignmentWord f) s = .next (s.endHold.takeFrame f) := by
  show execHoldAlignmentWord f s = _
  rw [execHoldAlignmentWord, if_pos ⟨ha, hf⟩, if_pos (show frameWord f = alignmentWord from word), if_neg (by omega)]

/-- R77: an interrupted digit is sent on with a pause. -/
theorem Trunk.atHoldEnd_interrupted {p : Vector Profile 4} {r : Trunk} {c : DecadicSender}
    (h : r.decadic = some (.sending c)) (interrupted : c.interrupted = true) : r.atHoldEnd p =
      { r with
        sentCode := (p.get r.profile).codes.fSeize
        decadic := some (.sending
          { c with phase := .pause, interrupted := false, timer := some (p.get r.profile).sendPause }) } := by
  simp [Trunk.atHoldEnd, h, interrupted]

theorem Trunk.atHoldEnd_waiting {p : Vector Profile 4} {r : Trunk} {c : DecadicSender}
    (h : r.decadic = some (.sending c)) (whole : c.interrupted = false) (phase : c.phase = .waiting)
    (timer : c.timer = none) : r.atHoldEnd p =
      { r with decadic := some (.sending { c with phase := .pause, timer := some (p.get r.profile).sendPause }) } := by
  simp [Trunk.atHoldEnd, h, whole, phase, timer]

/-- R87: a digit that was counted is rejected. -/
theorem Trunk.atHoldEnd_counting {p : Vector Profile 4} {r : Trunk} {c : DecadicReceiver}
    (h : r.decadic = some (.receiving c)) (counting : c.phase = .counting) : r.atHoldEnd p =
      { r with decadic := some (.receiving { c with phase := .rejecting, pulses := 0 }) } := by
  simp [Trunk.atHoldEnd, h, counting]

theorem Trunk.atHoldEnd_sentCode {p : Vector Profile 4} {r : Trunk}
    (h : ∀ c, r.decadic = some (.sending c) → c.interrupted = false) : (r.atHoldEnd p).sentCode = r.sentCode := by
  rcases d : r.decadic with _ | ⟨c | c | w⟩
  · simp [Trunk.atHoldEnd, d]
  · have whole := h c d
    simp only [Trunk.atHoldEnd, d, whole, Bool.false_eq_true, if_false]
    split_ifs <;> rfl
  · simp only [Trunk.atHoldEnd, d]
    split_ifs <;> rfl
  · simp [Trunk.atHoldEnd, d]

theorem Trunk.atHoldEnd_steady {p : Vector Profile 4} {r : Trunk}
    (sender : ∀ c, r.decadic = some (.sending c) → c.interrupted = false ∧ (c.phase = .waiting → c.timer ≠ none))
    (receiver : ∀ c, r.decadic = some (.receiving c) → c.phase ≠ .counting) : r.atHoldEnd p = r := by
  rcases d : r.decadic with _ | ⟨c | c | w⟩
  · simp [Trunk.atHoldEnd, d]
  · obtain ⟨whole, waits⟩ := sender c d
    simp [Trunk.atHoldEnd, d, whole]
    exact fun phase timer => absurd timer (waits phase)
  · simp [Trunk.atHoldEnd, d, receiver c d]
  · simp [Trunk.atHoldEnd, d]

/-- Settles O13. -/
theorem thirdCorrectWordEndsTheHold : Obligations.ThirdCorrectWordEndsTheHold := by
  unfold Obligations.ThirdCorrectWordEndsTheHold
  intro s f ha hf
  refine ⟨fun word => ?_, fun word early => ?_, fun start word third hs => ?_⟩
  · show execHoldAlignmentWord f s = _
    rw [execHoldAlignmentWord, if_pos ⟨ha, hf⟩, if_neg (show frameWord f ≠ alignmentWord from word)]
  · show execHoldAlignmentWord f s = _
    rw [execHoldAlignmentWord, if_pos ⟨ha, hf⟩, if_pos (show frameWord f = alignmentWord from word),
      if_pos (by omega)]
  have kept := (s.endHold_keepsReports hs).trans (s.endHold.takeFrame_keepsReports f)
  refine ⟨_, execHoldAlignmentWord_third ha hf word third, kept.tmb.trans (State.submit_tmb _ _ _),
    kept.hwi.trans (State.submit_hwi _ _ _), kept.reported _ _ rfl (State.submit_reported _ _ rfl),
    fun known t => ?_, fun known => ?_⟩
  · have trunk : (s.endHold.takeFrame f).trunk t = ((s.trunk t).atHoldEnd s.profiles).withoutCandidate := by
      rw [State.endHold_takeFrame hs known, State.withTrunks_trunk]
    have decadic : ((s.endHold.takeFrame f).trunk t).decadic = ((s.trunk t).atHoldEnd s.profiles).decadic := by
      rw [trunk]; rfl
    have sent : ((s.endHold.takeFrame f).trunk t).sentCode = ((s.trunk t).atHoldEnd s.profiles).sentCode := by
      rw [trunk]; rfl
    have whole : (s.endHold.takeFrame f).trunk t = { s.trunk t with
        lcr := { (s.trunk t).lcr with
          candidate := if (s.trunk t).role = .unequipped then (s.trunk t).lcr.candidate else none }
        sentCode := ((s.endHold.takeFrame f).trunk t).sentCode
        decadic := ((s.endHold.takeFrame f).trunk t).decadic } := by
      rw [decadic, sent, trunk, Trunk.atHoldEnd_rest]
      rfl
    refine ⟨by rw [whole], by rw [whole], fun c hc interrupted => ?_, fun c hc counting => ?_,
      fun c hc one phase timer => ?_, fun sender receiver => ?_, fun one => ?_, whole⟩
    · rw [sent, decadic, Trunk.atHoldEnd_interrupted hc interrupted]
      exact ⟨rfl, rfl⟩
    · rw [decadic, Trunk.atHoldEnd_counting hc counting]
    · rw [decadic, Trunk.atHoldEnd_waiting hc one phase timer]
    · rw [decadic, Trunk.atHoldEnd_steady sender receiver]
    · rw [sent, Trunk.atHoldEnd_sentCode one]
  · obtain ⟨calls, busy, free⟩ := State.endHold_pool hs
    rw [State.endHold_takeFrame hs known]
    simp only [State.withTrunks_callQueue, State.withTrunks_units, State.withTrunks_testQueue, State.withTrunks_unit,
      State.withTrunks_profiles, State.withTrunks_analysis, State.withTrunks_sequence, State.withTrunks_traffic,
      State.withTrunks_clk, State.withTrunks_pending, State.withTrunks_sgtx, State.withTrunks_ltx,
      State.withTrunks_rqa, State.withTrunks_fault]
    refine ⟨calls, busy, fun l hl empty => ?_, State.endHold_rest hs⟩
    obtain ⟨tests, granted, spare, others⟩ := free empty
    subst hl
    exact ⟨tests, granted, spare, others⟩

end Sys2Proof.Machine
end

section
/-! PROOFS. The tone block of a measuring unit. -/

namespace Sys2Proof.Machine

/-! ### The figures of a measurement -/

/-- R98: the bits found from the top down are those of the square root rounded down. -/
theorem sqrtBits_eq_sqrt {n : Nat} (k : Nat) {r : Nat} (low : r * r ≤ n) (high : n < (r + 2 ^ k) * (r + 2 ^ k)) :
    sqrtBits n k r = n.sqrt := by
  induction k generalizing r with
  | zero => exact (Nat.eq_sqrt (n := n) (a := r)).mpr ⟨low, by simpa using high⟩
  | succ k ih =>
    rw [pow_succ] at high
    unfold sqrtBits
    by_cases fits : (r + 2 ^ k) * (r + 2 ^ k) ≤ n
    · rw [if_pos fits]
      exact ih fits (by rwa [add_assoc, ← mul_two])
    · rw [if_neg fits]
      exact ih low (not_le.mp fits)

theorem floorSqrt_eq_sqrt (n : Nat) : floorSqrt n = n.sqrt := by
  refine sqrtBits_eq_sqrt _ (Nat.zero_le n) ?_
  have half : n.log2 + 1 ≤ (n.log2 / 2 + 1) + (n.log2 / 2 + 1) := by omega
  calc n < 2 ^ (n.log2 + 1) := Nat.lt_log2_self
    _ ≤ 2 ^ ((n.log2 / 2 + 1) + (n.log2 / 2 + 1)) := Nat.pow_le_pow_right (by decide) half
    _ = (0 + 2 ^ (n.log2 / 2 + 1)) * (0 + 2 ^ (n.log2 / 2 + 1)) := by rw [zero_add, pow_add]

theorem floorSqrt_unique {n r : Nat} (low : r * r ≤ n) (high : n < (r + 1) * (r + 1)) : floorSqrt n = r := by
  rw [floorSqrt_eq_sqrt]
  exact (Nat.eq_sqrt.mpr ⟨low, high⟩).symm

/-- The better of the best so far and the next: the earlier of equal ones. -/
def stronger (best x : Nat × Nat) : Nat × Nat := if best.1 < x.1 then x else best

theorem strongestIndex_eq (l : List Nat) :
    strongestIndex l = (l.zipIdx.foldl stronger (l.getD 0 0, 0)).2 := rfl

theorem foldl_stronger_stays {l : List Nat} {best : Nat × Nat} (h : ∀ x ∈ l, x ≤ best.1) (n : Nat) :
    (l.zipIdx n).foldl stronger best = best := by
  induction l generalizing n with
  | nil => rfl
  | cons x l ih =>
    have stays : stronger best (x, n) = best := if_neg (not_lt.mpr (h x (by simp)))
    rw [List.zipIdx_cons, List.foldl_cons, stays]
    exact ih (fun y hy => h y (by simp [hy])) (n + 1)

theorem foldl_stronger_finds {l : List Nat} {m j : Nat} (hj : l[j]? = some m) (top : ∀ x ∈ l, x ≤ m)
    (first : ∀ i x, i < j → l[i]? = some x → x < m) {best : Nat × Nat} (below : best.1 < m) (n : Nat) :
    (l.zipIdx n).foldl stronger best = (m, n + j) := by
  induction l generalizing n j best with
  | nil => simp at hj
  | cons x l ih =>
    rw [List.zipIdx_cons, List.foldl_cons]
    have top' : ∀ y ∈ l, y ≤ m := fun y hy => top y (by simp [hy])
    cases j with
    | zero =>
      obtain rfl : x = m := by simpa using hj
      have taken : stronger best (x, n) = (x, n) := if_pos below
      rw [taken]
      exact foldl_stronger_stays top' (n + 1)
    | succ j =>
      have next : (stronger best (x, n)).1 < m := by
        unfold stronger
        split_ifs
        · exact first 0 x (by omega) rfl
        · exact below
      have found := ih (j := j) hj top' (fun i y hi hy => first (i + 1) y (by omega) hy) next (n + 1)
      rw [found, Nat.add_right_comm, Nat.add_assoc]

/-- R119: the lowest index whose sum is greatest. -/
theorem strongestIndex_of_lowest {l : List Nat} {m j : Nat} (hj : l[j]? = some m) (top : ∀ x ∈ l, x ≤ m)
    (first : ∀ i x, i < j → l[i]? = some x → x < m) : strongestIndex l = j := by
  rw [strongestIndex_eq]
  cases j with
  | zero =>
    have head : l.getD 0 0 = m := by simp [List.getD_eq_getElem?_getD, hj]
    rw [head, foldl_stronger_stays (best := (m, 0)) top 0]
  | succ j =>
    obtain ⟨x, hx⟩ : ∃ x, l[0]? = some x := by
      cases l with
      | nil => simp at hj
      | cons x l => exact ⟨x, rfl⟩
    have head : l.getD 0 0 = x := by simp [List.getD_eq_getElem?_getD, hx]
    rw [head, foldl_stronger_finds hj top first (first 0 x (by omega) hx) 0, Nat.zero_add]

theorem getElem?_toList (v : Vector Nat 10) {i x : Nat} (h : v.toList[i]? = some x) : ∃ j : Fin 10, j.val = i ∧ v.get j = x := by
  obtain ⟨hi, e⟩ := List.getElem?_eq_some_iff.mp h
  have lt : i < 10 := by simpa using hi
  exact ⟨⟨i, lt⟩, rfl, by rw [← e, Vector.getElem_toList]; rfl⟩

/-- R98, R118, R119: the figures of a measurement of m blocks. -/
theorem measurementFigures_eq {e m rms root : Nat} {sums : Vector Nat 10} {k : Fin 10} (some_ : m ≠ 0)
    (rmsLow : rms * rms * (160 * m) ≤ e) (rmsHigh : e < (rms + 1) * (rms + 1) * (160 * m))
    (top : ∀ j, sums.get j ≤ sums.get k) (first : ∀ j < k, sums.get j < sums.get k)
    (rootLow : root * root ≤ sums.get k / m) (rootHigh : sums.get k / m < (root + 1) * (root + 1)) :
    measurementFigures e sums.toList m = some { rms := rms, strongest := k.val, estimate := root / 80 } := by
  have here : sums.toList[k.val]? = some (sums.get k) := by
    rw [List.getElem?_eq_some_iff]
    exact ⟨by simp, by rw [Vector.getElem_toList]; rfl⟩
  have lowest : strongestIndex sums.toList = k.val := by
    refine strongestIndex_of_lowest here (fun x hx => ?_) fun i x hi hx => ?_
    · obtain ⟨i, hi⟩ := List.mem_iff_getElem?.mp hx
      obtain ⟨j, -, rfl⟩ := getElem?_toList sums hi
      exact top j
    · obtain ⟨j, rfl, rfl⟩ := getElem?_toList sums hx
      exact first j hi
  have blocks : 0 < 160 * m := by omega
  have rms_ : floorSqrt (e / (160 * m)) = rms :=
    floorSqrt_unique ((Nat.le_div_iff_mul_le blocks).mpr rmsLow) ((Nat.div_lt_iff_lt_mul blocks).mpr rmsHigh)
  have power : sums.toList.getD k.val 0 = sums.get k := by rw [List.getD_eq_getElem?_getD, here]; rfl
  unfold measurementFigures
  rw [if_neg some_]
  dsimp only
  rw [lowest, power, rms_, floorSqrt_unique rootLow rootHigh]

/-! ### A tone block event -/

theorem State.mapUnit_mapUnit (s : State) (v : UnitNo) (f g : ToneUnit → ToneUnit) :
    (s.mapUnit v f).mapUnit v g = s.mapUnit v fun u => g (f u) := by
  simp [State.mapUnit, State.unit, get_set]

theorem State.submit_mapUnit (s : State) (x : Option TrunkNo) {b : ReportBody} (sequenced : b.isCondition = false)
    (v : UnitNo) (f : ToneUnit → ToneUnit) : (s.submit x b).mapUnit v f = (s.mapUnit v f).submit x b := by
  have captured : ∀ (s : State) (k : FaultKind), (s.capture k x).mapUnit v f = (s.mapUnit v f).capture k x := by
    intro s k
    unfold State.capture
    simp only [State.mapUnit_fault]
    split <;> rfl
  have cond : ¬ b.isCondition = true := by simp [sequenced]
  unfold State.submit
  rw [if_neg cond, if_neg cond, State.mapUnit_rqa]
  split_ifs
  · rfl
  · rw [captured]
    rfl

theorem execToneBlockEvent_ended {s : State} {n : UnitNo} {b : EndedBlock} (h : (s.unit n).ended = some b) :
    exec (.toneBlockEvent n) s = .next (s.blockEnded n b) := by
  show execToneBlockEvent n s = _
  unfold execToneBlockEvent
  rw [h]

/-- R108: a block power, by its formula. -/
theorem EndedBlock.powers_get (b : EndedBlock) (k : Fin 10) : ((b.powers.get k : Nat) : Int) =
    max 0 ((b.bank.get k).s1 * (b.bank.get k).s1 + (b.bank.get k).s2 * (b.bank.get k).s2 -
      (coefficients.get k * (b.bank.get k).s1 * (b.bank.get k).s2 + 8192).fdiv 16384) := by
  have power : b.powers.get k = (b.bank.get k).power (coefficients.get k) := by
    simp [EndedBlock.powers, Vector.get_eq_getElem]
  rw [power, Int.fdiv_eq_ediv_of_nonneg _ (by decide), max_comm]
  exact Int.toNat_eq_max _

/-- The unit of an ended block once the block is taken. -/
def State.takesBlock (s : State) (n : UnitNo) : State := s.mapUnit n fun u => { u with ended := none }

/-- R10: a block in hold, and one of a free unit, is discarded. -/
theorem State.blockEnded_discards {s : State} {n : UnitNo} (b : EndedBlock)
    (h : s.hwi.alignment = .hold ∨ (s.unit n).status = .free) : s.blockEnded n b = s.takesBlock n := by
  unfold State.blockEnded
  dsimp only
  rw [State.mapUnit_unit]
  split_ifs with hold
  · rfl
  · have free : (s.unit n).status = .free := h.resolve_left (by simpa [State.inHold] using hold)
    simp only [free]
    rfl

theorem State.blockEnded_measures {s : State} {n : UnitNo} (b : EndedBlock) {t : TrunkNo} {asked done : Nat}
    (aligned : s.hwi.alignment ≠ .hold) (h : (s.unit n).status = .measuring t asked done) :
    s.blockEnded n b = (s.takesBlock n).measureBlock n t asked done b := by
  unfold State.blockEnded
  dsimp only
  rw [if_neg (by simpa [State.inHold] using aligned), State.mapUnit_unit]
  simp only [h]
  rfl

/-- R118: the unit once a block has been added to the sums of its measurement. -/
def State.addsBlock (s : State) (n : UnitNo) (b : EndedBlock) (t : TrunkNo) (asked done : Nat) : State :=
  s.mapUnit n fun u => { u with
    ended := none, status := .measuring t asked (done + 1), energySum := u.energySum + b.energy
    powerSums := Vector.zipWith (· + ·) u.powerSums b.powers }

theorem State.takesBlock_measures (s : State) (n : UnitNo) (b : EndedBlock) (t : TrunkNo) (asked done : Nat) :
    (s.takesBlock n).measureBlock n t asked done b = if asked ≤ done + 1 then
      ((s.addsBlock n b t asked done).reportMeasurement n t .done (done + 1)).freeUnit true n
    else s.addsBlock n b t asked done := by
  unfold State.measureBlock State.takesBlock
  rw [State.mapUnit_mapUnit]
  rfl

/-- R97: the last block of a measurement reports it, and its unit is handed on. -/
theorem State.addsBlock_reports (s : State) (n : UnitNo) (b : EndedBlock) (t : TrunkNo) (asked done : Nat) :
    ((s.addsBlock n b t asked done).reportMeasurement n t .done (done + 1)).freeUnit true n =
      ((s.submit (some t) (.testResult .done (done + 1) (measurementFigures ((s.unit n).energySum + b.energy)
        (Vector.zipWith (· + ·) (s.unit n).powerSums b.powers).toList (done + 1)))).mapUnit n
          fun _ => { status := .free }).handsOn n := by
  have own : (s.addsBlock n b t asked done).unit n = _ := State.mapUnit_unit _ _ _
  rw [State.freeUnit_eq, State.reportMeasurement, own, State.submit_mapUnit _ _ rfl, State.addsBlock,
    State.mapUnit_mapUnit, ← State.submit_mapUnit _ _ rfl]

/-- Settles O30. -/
theorem toneBlocksOfAMeasurementAndInHold : Obligations.ToneBlocksOfAMeasurementAndInHold := by
  unfold Obligations.ToneBlocksOfAMeasurementAndInHold
  intro s n
  refine ⟨fun none_ => ?_, fun b hb => ⟨fun k c hc => ?_, fun h => ?_, fun t asked done aligned h more => ?_,
    fun t asked done m e rms root sums k aligned h last hm he hs rmsLow rmsHigh top first rootLow rootHigh => ?_⟩⟩
  · show execToneBlockEvent n s = _
    unfold execToneBlockEvent
    rw [none_]
  · rw [hc]
    exact b.powers_get k
  · rw [execToneBlockEvent_ended hb, State.blockEnded_discards b h]
    rfl
  · rw [execToneBlockEvent_ended hb, State.blockEnded_measures b aligned h, State.takesBlock_measures,
      if_neg (by omega)]
    rfl
  · rw [execToneBlockEvent_ended hb, State.blockEnded_measures b aligned h, State.takesBlock_measures, if_pos last,
      State.addsBlock_reports, ← hm, ← he, ← hs,
      measurementFigures_eq (by omega) rmsLow rmsHigh top first rootLow rootHigh]

end Sys2Proof.Machine
end

section
/-! PROOFS. The sample event. -/

namespace Sys2Proof.Machine

/-! ### What a sample event sends -/

theorem State.ltxSample_tone {s : State} {t : TrunkNo} {h : HeldUnit} {g : Generation} (swx : Vector Byte 32)
    (held : (s.trunk t).unit = some h) (generates : (s.unit h.unit).generation = some g) : s.ltxSample swx t = g.code := by
  simp [State.ltxSample, State.speechMode, State.generating, held, generates]

theorem State.ltxSample_quiet {s : State} {t : TrunkNo} (swx : Vector Byte 32)
    (quiet : ∀ h, (s.trunk t).unit = some h → (s.unit h.unit).generation = none) : s.ltxSample swx t =
      if ((s.trunk t).state = .outSelecting ∨ (s.trunk t).state = .inSelecting) ∧
        (s.profiles.get (s.trunk t).profile).method = .tone then 0 else s.heard (swx.get t) := by
  have silent : s.generating t = none := by
    unfold State.generating
    rw [Option.bind_eq_none_iff]
    exact quiet
  unfold State.ltxSample State.speechMode State.profileOf
  rw [silent]
  dsimp only
  split_ifs <;> rfl

/-! ### What a sample event does to a unit -/

theorem State.sampleUnit_free {s : State} (lrx : Vector Byte 32) {u : ToneUnit} (h : u.status = .free) :
    s.sampleUnit lrx u = u := by
  simp [State.sampleUnit, h, UnitStatus.trunk]

theorem State.sampleUnit_assigned {s : State} (lrx : Vector Byte 32) {u : ToneUnit} {t : TrunkNo}
    (h : u.status.trunk = some t) : s.sampleUnit lrx u =
      { u.takeSample (s.heard (lrx.get t)) with generation := u.generation.map fun g => { g with n := g.n + 1 } } := by
  simp [State.sampleUnit, h]

theorem UnitStatus.trunk_eq_some {x : UnitStatus} {t : TrunkNo}
    (h : (∃ role, x = .signalling t role) ∨ ∃ a d, x = .measuring t a d) : x.trunk = some t := by
  rcases h with ⟨role, rfl⟩ | ⟨a, d, rfl⟩
  · rfl
  · rfl

theorem toNat_mul_self (x : Int) : (x * x).toNat = x.natAbs * x.natAbs := by
  rw [← Int.natAbs_mul_self', ← Nat.cast_mul, Int.toNat_natCast]

/-- R107: a sample inside a block. -/
theorem ToneUnit.takeSample_within {u : ToneUnit} (code : Byte) (h : u.pos < 159) : u.takeSample code =
    { u with
      pos := u.pos + 1, bank := stepBank u.status u.bank (expand code)
      energy := u.energy + (expand code).natAbs * (expand code).natAbs } := by
  have inside : u.pos + 1 < Config.blockLength := by unfold Config.blockLength; omega
  unfold ToneUnit.takeSample
  dsimp only
  rw [if_pos inside, toNat_mul_self]

/-- R108: the last sample of a block. -/
theorem ToneUnit.takeSample_ends {u : ToneUnit} (code : Byte) (h : u.pos = 159) : u.takeSample code =
    { u with
      pos := 0, bank := Vector.replicate 10 {}, energy := 0
      ended := some {
        bank := stepBank u.status u.bank (expand code)
        energy := u.energy + (expand code).natAbs * (expand code).natAbs } } := by
  have last : ¬ u.pos + 1 < Config.blockLength := by unfold Config.blockLength; omega
  unfold ToneUnit.takeSample
  dsimp only
  rw [if_neg last, toNat_mul_self]

/-- R106, R107: a bank stepped where a unit runs its resonators, and left elsewhere. -/
theorem stepBank_unique {status : UnitStatus} {old bank : Vector Resonator 10} {x : Int} {runs : Fin 10 → Prop}
    (hr : ∀ k : Fin 10, runs k ↔ status.runs k.val = true)
    (hb : ∀ k r, r = old.get k →
      (runs k → bank.get k = { s1 := x + (coefficients.get k * r.s1 + 8192).fdiv 16384 - r.s2, s2 := r.s1 }) ∧
      (¬ runs k → bank.get k = r)) : stepBank status old x = bank := by
  refine Vector.ext fun i hi => ?_
  obtain ⟨stepped, left⟩ := hb ⟨i, hi⟩ _ rfl
  rw [hr] at stepped left
  unfold stepBank
  rw [Vector.getElem_ofFn]
  split_ifs with running
  · rw [Int.fdiv_eq_ediv_of_nonneg _ (by decide)] at stepped
    exact (stepped running).symm
  · exact (left running).symm

theorem UnitStatus.runs_iff {x : UnitStatus} {t : TrunkNo} {runs : Fin 10 → Prop}
    (h : (x = .signalling t .receiver ∧ ∀ k, runs k ↔ k.val < 6) ∨
      (x = .signalling t .sender ∧ ∀ k, runs k ↔ 6 ≤ k.val) ∨ ((∃ a d, x = .measuring t a d) ∧ ∀ k, runs k)) :
    x.trunk = some t ∧ ∀ k : Fin 10, runs k ↔ x.runs k.val = true := by
  rcases h with ⟨rfl, hr⟩ | ⟨rfl, hr⟩ | ⟨⟨a, d, rfl⟩, hr⟩
  · exact ⟨rfl, fun k => by simp [hr, UnitStatus.runs]⟩
  · exact ⟨rfl, fun k => by simp [hr, UnitStatus.runs]⟩
  · exact ⟨rfl, fun k => by simp [hr, UnitStatus.runs]⟩

/-- R4: the state after a sample event. -/
def State.sampled (s : State) (lrx swx : Vector Byte 32) : State :=
  { s with ltx := some (Vector.ofFn fun t => s.ltxSample swx t), units := s.units.map (s.sampleUnit lrx) }

theorem execSampleEvent_eq (s : State) (lrx swx : Vector Byte 32) :
    exec (.sampleEvent lrx swx) s = .next (s.sampled lrx swx) := rfl

theorem State.sampled_unit (s : State) (lrx swx : Vector Byte 32) (n : UnitNo) :
    (s.sampled lrx swx).unit n = s.sampleUnit lrx (s.unit n) := get_map s.units _ n

/-- R19: what a sample event does to the unit that serves a trunk. -/
theorem State.sampled_assigned {s : State} {n : UnitNo} {t : TrunkNo} (lrx swx : Vector Byte 32)
    (h : (s.unit n).status.trunk = some t) : (s.sampled lrx swx).unit n =
      { (s.unit n).takeSample (s.heard (lrx.get t)) with
        generation := (s.unit n).generation.map fun g => { g with n := g.n + 1 } } := by
  rw [State.sampled_unit, State.sampleUnit_assigned lrx h]

/-! ### The sine -/

theorem scaledSine_congr {a b : Nat} (h : a % 160 = b % 160) : scaledSine a = scaledSine b := by
  unfold scaledSine
  rw [h]

theorem scaledSine_opposite (k : Nat) : scaledSine (k + 80) = -scaledSine k := by
  have table : ∀ k < 160, scaledSine (k + 80) = -scaledSine k := by decide +kernel
  rw [scaledSine_congr (a := k + 80) (b := k % 160 + 80) (by omega), table _ (Nat.mod_lt _ (by decide)),
    scaledSine_congr (a := k % 160) (b := k) (by omega)]

theorem scaledSine_mirrored : ∀ k ≤ 40, scaledSine (80 - k) = scaledSine k := by decide +kernel

theorem scaledSine_rises : ∀ k < 40, scaledSine k < scaledSine (k + 1) := by decide +kernel

/-- The table meets the addition identity within its rounding. -/
theorem scaledSine_add : ∀ j ≤ 40, ∀ k ≤ 40 - j,
    (scaledSine j * scaledSine (40 - k) + scaledSine (40 - j) * scaledSine k - 2 ^ 48 * scaledSine (j + k)).natAbs ≤
      2 ^ 49 := by decide +kernel

/-! ### Generation -/

/-- R117: the rounding is to the nearest integer, halves away from zero. -/
theorem roundScaled_nearest (y : Int) : 2 * (y - roundScaled y * 2 ^ 48).natAbs ≤ 2 ^ 48 ∧
    (2 * (y - roundScaled y * 2 ^ 48).natAbs = 2 ^ 48 → y.natAbs < (roundScaled y * 2 ^ 48).natAbs) := by
  unfold roundScaled
  split_ifs with h
  · omega
  · omega

/-- R105, R112: the multiples of 50 Hz of a signal's two frequencies. -/
def ToneSignal.steps (x : ToneSignal) : Nat × Nat := (frequencySteps x.indices.1, frequencySteps x.indices.2)

theorem Generation.value_eq (g : Generation) : g.value = max (-8031) (min 8031 (roundScaled
    (g.amplitude * (scaledSine (g.sig.steps.1 * g.n) + scaledSine (g.sig.steps.2 * g.n))))) := rfl

theorem ToneSignal.steps_of_table {x : ToneSignal × Nat × Nat} (hx : x ∈
    [(ToneSignal.forward .ft1, 26, 29), (.forward .ft2, 26, 32), (.forward .ft3, 26, 35), (.forward .ft4, 26, 38),
      (.forward .ft5, 26, 41), (.forward .ft6, 29, 32), (.forward .ft7, 29, 35), (.forward .ft8, 29, 38),
      (.forward .ft9, 29, 41), (.forward .ft10, 32, 35), (.forward .ft11, 32, 38), (.forward .ft12, 32, 41),
      (.forward .ft13, 35, 38), (.forward .ft14, 35, 41), (.forward .ft15, 38, 41), (.backward .bt1, 10, 13),
      (.backward .bt2, 10, 16), (.backward .bt3, 10, 19), (.backward .bt4, 13, 16), (.backward .bt5, 13, 19),
      (.backward .bt6, 16, 19)]) : x.1.steps = x.2 := by
  revert x
  decide

/-- Settles O55. -/
theorem sampleEventsPassSilenceOrGenerate : Obligations.SampleEventsPassSilenceOrGenerate := by
  unfold Obligations.SampleEventsPassSilenceOrGenerate
  refine ⟨fun s lrx swx => ⟨s.sampled lrx swx, _, execSampleEvent_eq s lrx swx, rfl, fun t h g held generates => ?_,
      fun t quiet => ?_, fun n free => ?_, fun n t assigned => ?_⟩, by decide,
    fun s u lrx swx n t x runs bank energy hu hx he status hb => ?_,
    scaledSine, by decide, by decide, scaledSine_opposite, scaledSine_mirrored, scaledSine_rises, scaledSine_add,
    fun x hx g y sig hy => ⟨rfl, roundScaled y, (roundScaled_nearest y).1, (roundScaled_nearest y).2, ?_⟩⟩
  · rw [← State.ltxSample_tone swx held generates]
    simp [Vector.get_eq_getElem]
  · refine Eq.trans ?_ (State.ltxSample_quiet swx quiet)
    simp [Vector.get_eq_getElem]
  · rw [State.sampled_unit, State.sampleUnit_free lrx free]
  · have unit := State.sampled_assigned lrx swx (UnitStatus.trunk_eq_some assigned)
    refine ⟨unit, fun within => ?_, fun last => ?_⟩
    · rw [unit, ToneUnit.takeSample_within _ within]
      exact ⟨rfl, rfl⟩
    · rw [unit, ToneUnit.takeSample_ends _ last]
      exact ⟨rfl, rfl, rfl⟩
  · obtain ⟨trunk, running⟩ := UnitStatus.runs_iff status
    have stepped := stepBank_unique running hb
    rw [execSampleEvent_eq] at hu
    obtain rfl := Host.Outcome.next.inj hu
    have unit := State.sampled_assigned lrx swx trunk
    have heard : x = expand (s.heard (lrx.get t)) := hx
    refine ⟨fun within => ?_, fun last => ?_⟩
    · rw [unit, ToneUnit.takeSample_within _ within, ← heard, stepped, ← he]
    · rw [unit, ToneUnit.takeSample_ends _ last, ← heard, stepped, ← he]
  · rw [Generation.value_eq, sig, ToneSignal.steps_of_table hx, hy]

end Sys2Proof.Machine
end

section
/-! PROOFS. SET-PROFILE and SET-TRUNK. -/

namespace Sys2Proof.Machine

/-! ### SET-PROFILE -/

/-- A payload that begins with a profile number is read as that profile. -/
theorem profileNoOf_byte (n : ProfileNo) (p : List Byte) : profileNoOf (byteAt (byte n.val :: p) 0) = some n := by
  have value : byteAt (byte n.val :: p) 0 = n.val := byte_toNat _ (by omega)
  rw [value]
  exact dif_pos n.isLt

/-- A condition on the equipped trunks that name a profile, as the judgement of SET-PROFILE computes it. -/
theorem State.any_names_eq_false {s : State} {n : ProfileNo} {b : Trunk → Bool}
    (h : ∀ t, (s.trunk t).role ≠ .unequipped → (s.trunk t).profile = n → b (s.trunk t) = false) :
    (s.trunks.toList.any fun r => r.names n && b r) = false := by
  rw [List.any_eq_false]
  intro r hr both
  obtain ⟨i, hi, rfl⟩ := List.mem_iff_getElem.mp hr
  rw [Vector.length_toList] at hi
  obtain ⟨named, holds⟩ := (Bool.and_eq_true _ _).mp both
  obtain ⟨equipped, profile⟩ := (Trunk.names_iff _ _).mp named
  exact Bool.false_ne_true ((h ⟨i, hi⟩ equipped profile).symm.trans holds)

/-- R23, R24, R26: a record that passes the validations is accepted while no trunk that names the profile is in
call. -/
theorem State.judgeSetProfile_accepts {s : State} {n : ProfileNo} {p : List Byte} {pr : Profile} (len : p.length = 49)
    (read : readProfile p = some pr) (valid : pr.codes.valid = true)
    (bothWay : ∀ t, (s.trunk t).role = .bothWay → (s.trunk t).profile = n → pr.codes.validBothWay = true)
    (idle : ∀ t, (s.trunk t).role ≠ .unequipped → (s.trunk t).profile = n → (s.trunk t).state.inCall = false) :
    s.judgeSetProfile (byte n.val :: p) = .ok (n, pr) := by
  have calls := State.any_names_eq_false (b := fun r => r.state.inCall) idle
  have codes : (!(s.trunks.toList.any fun r => r.names n && r.role == .bothWay) || pr.codes.validBothWay) = true := by
    cases hv : pr.codes.validBothWay with
    | true => exact Bool.or_true _
    | false =>
      rw [State.any_names_eq_false (b := fun r => r.role == .bothWay) fun t _ named => ?_]
      · rfl
      · exact beq_eq_false_iff_ne.mpr fun role => absurd ((bothWay t role named).symm.trans hv) (by decide)
  simp only [State.judgeSetProfile, check_bind_ok, fieldOf_bind_ok]
  exact ⟨by simp [len], n, profileNoOf_byte n p, pr, read, valid, codes, by simp [calls], rfl⟩

/-- R26, R27: the state with a profile stored and the sent codes of its trunks set, before any code is decoded. -/
def State.withProfile (s : State) (n : ProfileNo) (q : Profile) : State :=
  { s with
    profiles := s.profiles.set n q
    trunks := s.trunks.map fun r =>
      if r.role ≠ .unequipped ∧ r.profile = n then { r with sentCode := sentCodeOf q.codes r.role r.state } else r }

theorem State.withProfile_trunk (s : State) (n : ProfileNo) (q : Profile) (t : TrunkNo) :
    (s.withProfile n q).trunk t = if (s.trunk t).role ≠ .unequipped ∧ (s.trunk t).profile = n then
      { s.trunk t with sentCode := sentCodeOf q.codes (s.trunk t).role (s.trunk t).state } else s.trunk t :=
  get_map _ _ _

/-- R27: the sent codes are set as one change of all the records. -/
theorem State.resendCodes_storeProfile (s : State) (n : ProfileNo) (pr : Profile) :
    ((s.storeProfile n pr).forTrunks fun s t => if (s.trunk t).names n then s.resendCode t else s) =
      s.withProfile n pr.clamped := by
  rw [State.resendCodes_eq]
  refine (State.withTrunks_eq_of_trunk rfl fun t => ?_).symm
  rw [State.withProfile_trunk]
  have stored : (s.storeProfile n pr).profiles.get n = pr.clamped := by simp [State.storeProfile, get_set]
  have same : (s.storeProfile n pr).trunk t = s.trunk t := rfl
  simp only [same, Trunk.names_iff]
  split_ifs with named
  · rw [named.2, stored]
  · rfl

theorem TrunkState.redecodes_iff (st : TrunkState) :
    st.redecodes = true ↔ st ∈ [TrunkState.idle, .remoteBlocked, .failed] := by
  cases st <;> decide

/-- R27: the decoding after SET-PROFILE, T0 first, in the words of the statement. -/
def State.redecodeTurn (n : ProfileNo) (x : State) (t : TrunkNo) : State :=
  if (x.trunk t).role ≠ .unequipped ∧ (x.trunk t).profile = n ∧
      (x.trunk t).state ∈ [TrunkState.idle, .remoteBlocked, .failed] then x.decodeLine t else x

theorem State.useProfile_eq (s : State) (n : ProfileNo) (pr : Profile) :
    (s.storeProfile n pr).useProfile n =
      (List.finRange 32).foldl (State.redecodeTurn n) (s.withProfile n pr.clamped) := by
  unfold State.useProfile
  rw [State.resendCodes_storeProfile]
  unfold State.forTrunks
  congr 1
  funext x t
  simp only [State.redecodeTurn, Trunk.names_iff, TrunkState.redecodes_iff, and_assoc]

/-- R25 to R27: an accepted SET-PROFILE. -/
theorem State.takeSetProfile_accepts {s : State} {n : ProfileNo} {p : List Byte} {pr : Profile}
    (h : s.judgeSetProfile p = .ok (n, pr)) : s.takeSetProfile p =
      ((List.finRange 32).foldl (State.redecodeTurn n) (s.withProfile n pr.clamped)).sendReply setProfileType
        (if pr.clamped = pr then .ok else .okClamped) [] := by
  unfold State.takeSetProfile
  rw [h]
  dsimp only
  rw [State.useProfile_eq]

/-- R17, R36: where no code is accepted there is nothing to decode afresh. -/
theorem State.redecodeTurn_unknown {s : State} {n : ProfileNo} {t : TrunkNo}
    (h : (s.trunk t).role ≠ .unequipped → (s.trunk t).profile = n → (s.trunk t).lcr.accepted = none) :
    s.redecodeTurn n t = s := by
  unfold State.redecodeTurn
  split_ifs with turn
  · obtain ⟨equipped, named, free⟩ := turn
    have nothing := s.decoded_none t (h equipped named)
    have row : (s.trunk t).state = .idle ∨ (s.trunk t).state = .remoteBlocked ∨ (s.trunk t).state = .failed := by
      simpa using free
    unfold State.decodeLine
    rcases row with st | st | st
    · simp only [st, State.decodeIdle, nothing]
    · simp only [st, nothing]
    · simp only [st, nothing]
  · rfl

/-- Settles O48. -/
theorem setProfileReplacesAClampedRecord : Obligations.SetProfileReplacesAClampedRecord := by
  unfold Obligations.SetProfileReplacesAClampedRecord
  refine ⟨fun s n p pr len read valid bothWay idle => ?_, ?_⟩
  · have taken := State.takeSetProfile_accepts
      (State.judgeSetProfile_accepts len read valid bothWay fun t e named => (idle t e named).1)
    have still : ∀ t, (s.withProfile n pr.clamped).redecodeTurn n t = s.withProfile n pr.clamped := by
      refine fun t => State.redecodeTurn_unknown ?_
      rw [State.withProfile_trunk]
      split_ifs with named
      · exact fun e c => (idle t e c).2
      · exact fun e c => (idle t e c).2
    rw [List.foldl_fixed' still] at taken
    refine ⟨s.withProfile n pr.clamped, pr.clamped, congrArg Host.Outcome.next taken, rfl, rfl, rfl, rfl, rfl, rfl,
      Profile.numbers_withNumbers _ (by simp [clampNumbers, Profile.numbers, numericRows]),
      s.withProfile_trunk n pr.clamped, rfl⟩
  · intro s v n p pr q len read valid bothWay idle hq hv
    subst hq hv
    exact congrArg Host.Outcome.next
      (State.takeSetProfile_accepts (State.judgeSetProfile_accepts len read valid bothWay idle))

/-! ### SET-TRUNK -/

theorem roleOf_code (r : Role) : roleOf r.code = some r := by cases r <;> rfl

theorem glareOf_code (g : GlareRole) : glareOf g.code = some g := by cases g <;> rfl

theorem Role.code_lt (r : Role) : r.code < 256 := by cases r <;> decide

theorem GlareRole.code_lt (g : GlareRole) : g.code < 256 := by cases g <;> decide

theorem TrunkState.configurable_iff (st : TrunkState) : st.configurable = true ↔
    st ∈ [TrunkState.unequipped, .idle, .localBlocked, .remoteBlocked, .failed] := by
  cases st <;> decide

/-- The payload of a SET-TRUNK (02, SET-TRUNK). -/
def TrunkSetting.bytes (c : TrunkSetting) : List Byte :=
  [byte c.trunk.val, byte c.role.code, byte c.profile.val, byte c.group.val, byte c.glare.code]

/-- R31: a trunk that no unit measures and for which no request waits has no test. -/
theorem State.measured_eq_false {s : State} {t : TrunkNo}
    (units : ∀ u asked done, (s.unit u).status ≠ .measuring t asked done)
    (tests : ∀ r ∈ s.testQueue, r.trunk ≠ t) : s.measured t = false := by
  have none_measures : s.measuringUnit t = none := by
    unfold State.measuringUnit
    refine List.findSome?_eq_none_iff.mpr fun u _ => ?_
    split
    · rename_i k asked done status
      refine if_neg fun e => units u asked done ?_
      rw [status, e]
    · rfl
  have none_waits : (s.testQueue.any fun r => r.trunk == t) = false :=
    List.any_eq_false.mpr fun r hr e => tests r hr (beq_iff_eq.mp e)
  simp only [State.measured, none_measures, none_waits, Option.isSome_none, Bool.or_self]

/-- R31: a SET-TRUNK is accepted for a trunk that is free, has no test and whose profile suits its role. -/
theorem State.judgeSetTrunk_accepts {s : State} {c : TrunkSetting}
    (bothWay : c.role = .bothWay → (s.profiles.get c.profile).codes.validBothWay = true)
    (free : (s.trunk c.trunk).state.configurable = true) (quiet : s.measured c.trunk = false) :
    s.judgeSetTrunk c.bytes = .ok c := by
  have codes : (c.role != .bothWay || (s.profiles.get c.profile).codes.validBothWay) = true := by
    by_cases h : c.role = .bothWay
    · rw [bothWay h, Bool.or_true]
    · simp [h]
  have trunk : byteAt c.bytes 0 = c.trunk.val := byte_toNat _ (by omega)
  have role : byteAt c.bytes 1 = c.role.code := byte_toNat _ c.role.code_lt
  have profile : byteAt c.bytes 2 = c.profile.val := byte_toNat _ (by omega)
  have group : byteAt c.bytes 3 = c.group.val := byte_toNat _ (by omega)
  have glare : byteAt c.bytes 4 = c.glare.code := byte_toNat _ c.glare.code_lt
  simp only [State.judgeSetTrunk, check_bind_ok, fieldOf_bind_ok, trunk, role, profile, group, glare, roleOf_code,
    glareOf_code]
  exact ⟨rfl, c.trunk, dif_pos c.trunk.isLt, c.role, rfl, c.profile, dif_pos c.profile.isLt, c.group,
    dif_pos c.group.isLt, c.glare, rfl, codes, free, by simp [quiet], rfl⟩

/-- R32: the state that a configured trunk enters. -/
def Trunk.configuredState (r : Trunk) (role : Role) : TrunkState :=
  if role = .unequipped then .unequipped else if r.localBlock then .localBlocked else .idle

/-- R32, R38: a configured trunk has no accepted code, so that nothing is decoded as it enters IDLE. -/
theorem State.enterConfigured_configure (s : State) (c : TrunkSetting) :
    (s.configure c).enterConfigured c.trunk =
      (s.configure c).enter c.trunk ((s.trunk c.trunk).configuredState c.role) := by
  have record : (s.configure c).trunk c.trunk = { s.trunk c.trunk with
      role := c.role, profile := c.profile, group := c.group, glare := c.glare
      remoteBlock := false, cause := none, lcr := {} } := s.mapTrunk_trunk _ _
  unfold State.enterConfigured State.enterIdle Trunk.configuredState
  rw [record]
  split_ifs
  · rfl
  · rfl
  · unfold State.decodeIdle
    rw [State.decoded_none _ _ (by rw [State.enter_trunk, if_pos rfl, record])]

/-- R32, R35: the record of a configured trunk, with the code that it sends. -/
theorem State.configure_enter (s : State) (c : TrunkSetting) (st : TrunkState) :
    (s.configure c).enter c.trunk st = s.mapTrunk c.trunk fun r => { r with
      role := c.role, profile := c.profile, group := c.group, glare := c.glare, remoteBlock := false, cause := none
      lcr := {}, state := st, sentCode := sentCodeOf (s.profiles.get c.profile).codes c.role st } := by
  unfold State.enter State.configure
  rw [State.mapTrunk_mapTrunk]
  simp only [State.profileOf, State.mapTrunk_trunk, State.mapTrunk_profiles]

/-- R31, R32: an accepted SET-TRUNK. -/
theorem State.takeSetTrunk_accepts {s : State} {c : TrunkSetting} (h : s.judgeSetTrunk c.bytes = .ok c) :
    s.takeSetTrunk c.bytes = ((s.configure c).enter c.trunk ((s.trunk c.trunk).configuredState c.role)).sendReply
      setTrunkType .ok [] := by
  unfold State.takeSetTrunk
  rw [h]
  dsimp only
  rw [State.enterConfigured_configure, State.accept]

/-- Settles O44. -/
theorem setTrunkWritesTheConfiguration : Obligations.SetTrunkWritesTheConfiguration := by
  unfold Obligations.SetTrunkWritesTheConfiguration
  intro s t role n g glare bothWay free units tests
  have taken := State.takeSetTrunk_accepts (State.judgeSetTrunk_accepts (c := ⟨t, role, n, g, glare⟩) bothWay
    ((TrunkState.configurable_iff _).mpr free) (State.measured_eq_false units tests))
  rw [State.configure_enter] at taken
  exact congrArg Host.Outcome.next taken

end Sys2Proof.Machine
end

section
/-! PROOFS. The queries of the stored records. -/

namespace Sys2Proof.Machine

/-! ### Numbers in bytes -/

theorem bytesOf_one (n : Nat) : bytesOf 1 n = [byte n] := rfl

theorem bytesOf_two (n : Nat) : bytesOf 2 n = [BitVec.ofNat 8 (n / 256), BitVec.ofNat 8 n] := rfl

theorem bytesOf_four (n : Nat) : bytesOf 4 n = [BitVec.ofNat 8 (n / 16777216), BitVec.ofNat 8 (n / 65536),
    BitVec.ofNat 8 (n / 256), BitVec.ofNat 8 n] := by
  have third : n / 256 / 256 = n / 65536 := Nat.div_div_eq_div_mul n 256 256
  have fourth : n / 65536 / 256 = n / 16777216 := Nat.div_div_eq_div_mul n 65536 256
  simp only [bytesOf, third, fourth, List.nil_append, List.cons_append]

/-- A 32-bit word in four bytes, its highest bits first. -/
theorem bytesOf_four_word (x : BitVec 32) : bytesOf 4 x.toNat =
    [x.extractLsb' 24 8, x.extractLsb' 16 8, x.extractLsb' 8 8, x.extractLsb' 0 8] := by
  simp only [bytesOf_four, BitVec.extractLsb', Nat.shiftRight_eq_div_pow]
  norm_num

theorem byte_bitVec {w : Nat} (x : BitVec w) : byte x.toNat = x.setWidth 8 := BitVec.ofNat_toNat 8 x

/-! ### Codes of enumerated values -/

theorem RegisterMethod.code_eq (x : RegisterMethod) : x.code = [noRegister, decadic, tone].idxOf x := by
  cases x <;> rfl

theorem AnalysisMode.code_eq (x : AnalysisMode) : x.code = [host, table].idxOf x := by cases x <;> rfl

theorem DefaultOutcome.code_eq (x : DefaultOutcome) : x.code = [openNumber, refuse].idxOf x := by cases x <;> rfl

theorem CategoryPolicy.code_eq (x : CategoryPolicy) : x.code = [never, afterFirstDigit].idxOf x := by cases x <;> rfl

theorem AnalysisOutcome.code_eq (x : AnalysisOutcome) : x.code = [fixed, openNumber, refuse].idxOf x := by
  cases x <;> rfl

theorem Role.code_eq (x : Role) : x.code = [unequipped, outgoing, incoming, bothWay].idxOf x := by cases x <;> rfl

theorem GlareRole.code_eq (x : GlareRole) : x.code = [yield, priority].idxOf x := by cases x <;> rfl

theorem TrunkState.code_eq (x : TrunkState) : x.code = [unequipped, idle, localBlocked, remoteBlocked, failed,
    outSeizing, outSelecting, outWaitAnswer, outAnswered, outClearback, outRejected, outClearing, inSelecting,
    inWaitAnswer, inAnswered, inClearback, inRejected, inGuard].idxOf x := by
  cases x <;> rfl

theorem Cause.code_eq (x : Cause) : x.code = [normal, ackTimeout, releaseTimeout, noAnswer, clearbackTimeout, noUnit,
    digitTimeout, interlockTimeout, protocol, congestion, unobtainable, holdLimit, inletCleared, overflow,
    reset].idxOf x := by
  cases x <;> rfl

theorem FilterMode.code_eq (x : FilterMode) : x.code = [line, pulse].idxOf x := by cases x <;> rfl

theorem SupervisionKind.code_eq (x : SupervisionKind) :
    x.code = [ack, answerWait, clearBack, release, guard].idxOf x := by cases x <;> rfl

theorem UnitRole.code_eq (x : UnitRole) : x.code = [sender, receiver].idxOf x := by cases x <;> rfl

theorem LinkPart.code_eq (x : LinkPart) : x.code = [inlet, outlet].idxOf x := by cases x <;> rfl

theorem TimeSource.byte_code (x : TimeSource) : byte x.code = if x = .highway then 0x00#8 else 0x01#8 := by
  cases x <;> rfl

/-! ### Accepted queries -/

/-- R28 -/
theorem State.takeGetProfile_carried (s : State) (n : ProfileNo) : s.takeGetProfile [byte n.val] =
    s.sendReply getProfileType .ok (byte n.val :: (s.profiles.get n).bytes) := by
  have number : (do check ([byte n.val].length == 1) .badLength; fieldOf (profileNoOf (byteAt [byte n.val] 0)) :
      Judged ProfileNo) = .ok n := by
    rw [profileNoOf_byte]; rfl
  unfold State.takeGetProfile
  rw [number]

/-- R154 -/
theorem State.takeGetAnalysis_carried (s : State) (k : Fin 32) : s.takeGetAnalysis [byte k.val] =
    s.sendReply getAnalysisType .ok ((s.analysis.get k).bytes k.val) := by
  have number : (do check ([byte k.val].length == 1) .badLength; fieldOf (trunkOf (byteAt [byte k.val] 0)) :
      Judged (Fin 32)) = .ok k := by
    rw [trunkOf_byte]; rfl
  unfold State.takeGetAnalysis
  rw [number]

/-- R39, R72 -/
theorem State.takeQueryTrunk_equipped {s : State} {t : TrunkNo} (h : (s.trunk t).role ≠ .unequipped) :
    s.takeQueryTrunk [byte t.val] = s.sendReply queryTrunkType .ok (s.trunkBytes t) := by
  unfold State.takeQueryTrunk
  rw [s.judgeTrunk_ok t _ h rfl]

theorem State.flagByte_inHold (s : State) : flagByte s.inHold = if s.hwi.alignment = .hold then 1 else 0 := by
  simp only [flagByte, State.inHold, beq_iff_eq]

theorem exec_getProfile (s : State) (p : List Byte) : exec (.getProfile p) s = .next (s.takeGetProfile p) := rfl
theorem exec_getAnalysis (s : State) (p : List Byte) : exec (.getAnalysis p) s = .next (s.takeGetAnalysis p) := rfl
theorem exec_queryTrunk (s : State) (p : List Byte) : exec (.queryTrunk p) s = .next (s.takeQueryTrunk p) := rfl
theorem exec_queryPool (s : State) : exec (.queryPool []) s = .next (s.sendReply queryPoolType .ok s.poolBytes) := rfl
theorem exec_identify (s : State) : exec (.identify []) s = .next (s.sendReply identifyType .ok s.identity) := rfl

/-- Replies to a query that carry the same data. -/
theorem State.reply_congr {s : State} {x : Byte} {d e : List Byte} (h : d = e) :
    (.next (s.sendReply x .ok d) : Answer) = .next (s.sendReply x .ok e) := by rw [h]

/-- Settles O43. -/
theorem queriesReturnTheStoredRecords : Obligations.QueriesReturnTheStoredRecords := by
  unfold Obligations.QueriesReturnTheStoredRecords
  intro s two four opt htwo hfour hopt
  obtain rfl : two = bytesOf 2 := funext fun n => (htwo n).trans (bytesOf_two n).symm
  obtain rfl : four = bytesOf 4 := funext fun n => (hfour n).trans (bytesOf_four n).symm
  obtain rfl : opt = optByte := funext hopt
  refine ⟨?_, ?_, ?_, ?_, ?_⟩
  · rintro n _ rfl
    rw [exec_getProfile, State.takeGetProfile_carried]
    refine State.reply_congr ?_
    simp only [← byte_bitVec, ← RegisterMethod.code_eq, ← AnalysisMode.code_eq, ← DefaultOutcome.code_eq,
      ← CategoryPolicy.code_eq]
    simp [Profile.bytes, writeNumbers, numericRows, Profile.numbers, bytesOf_one, flagByte]
  · rintro k _ rfl
    rw [exec_getAnalysis, State.takeGetAnalysis_carried]
    refine State.reply_congr ?_
    rw [← AnalysisOutcome.code_eq]
    rfl
  · rintro t _ rfl equipped
    rw [exec_queryTrunk, State.takeQueryTrunk_equipped equipped]
    refine State.reply_congr ?_
    simp only [← byte_bitVec, ← Role.code_eq, ← GlareRole.code_eq, ← TrunkState.code_eq, ← Cause.code_eq,
      ← FilterMode.code_eq, ← SupervisionKind.code_eq, ← UnitRole.code_eq, ← LinkPart.code_eq]
    simp only [State.trunkBytes, State.waitPosition, State.inHold, flagByte, Bool.and_eq_true, beq_iff_eq]
  · rintro _ rfl
    rw [exec_queryPool]
    refine State.reply_congr ?_
    simp only [← State.flagByte_inHold, ← UnitRole.code_eq]
    simp only [State.poolBytes, waitBytes, List.append_assoc, List.cons_append, List.nil_append]
    refine congrArg (· ++ _) (congrArg List.flatten (List.map_congr_left fun u _ => ?_))
    cases u.status <;> rfl
  · rw [exec_identify]
    refine State.reply_congr ?_
    rw [← bytesOf_four_word, ← byte_bitVec, ← byte_bitVec, ← TimeSource.byte_code, State.identity]
    cases s.hwi.alignment <;> rfl

end Sys2Proof.Machine
end

section
/-! PROOFS. The decoding of the accepted code: the table of R37 and what each of its actions outside a call does. -/

namespace Sys2Proof.Machine

/-! ### The rows of R37 -/

/-- R36: the first listed signal whose send code equals the code. -/
theorem decodeCode_listed (c : SendCodes) {before after : List (LineSignal × LineAction)} {sig : LineSignal}
    {a : LineAction} {code : LineCode} (hb : ∀ row ∈ before, c.of row.1 ≠ code) (hs : c.of sig = code) :
    decodeCode c (before ++ (sig, a) :: after) code = some (sig, a) := by
  unfold decodeCode
  rw [List.find?_append, List.find?_eq_none.mpr (by simpa using hb), List.find?_cons_of_pos (by simpa using hs)]
  rfl

/-- R36: a code that equals no listed signal. -/
theorem decodeCode_unlisted (c : SendCodes) {rows : List (LineSignal × LineAction)} {code : LineCode}
    (h : ∀ row ∈ rows, c.of row.1 ≠ code) : decodeCode c rows code = none :=
  List.find?_eq_none.mpr (by simpa using h)

/-- R37: the signals and states at which an action of the table can stand. -/
def LineAction.stands (sig : LineSignal) (st : TrunkState) : LineAction → Bool
  | .remoteFlag => sig = .bBlock ∧ st ∈ [TrunkState.localBlocked, .failed, .outSeizing]
  | .remoteBlocking => sig = .bBlock ∧ st = .idle
  | .remoteUnblocking => sig = .bIdle ∧ st = .remoteBlocked
  | .idleSignal => st = .localBlocked ∨ st = .failed
  | .incomingSeizure => sig = .fSeize ∧ st = .idle
  | .releaseComplete => st = .outClearing
  | .nothing => st.watchesBreaks = true → sig = .fSeize
  | _ => true

theorem listened_stands (role : Role) (st : TrunkState) : ∀ row ∈ listened role st, row.2.stands row.1 st = true := by
  cases role <;> cases st <;> decide

/-! ### A trunk decodes its accepted code -/

/-- R36, R37 in OUT-CLEARING. -/
theorem State.decodeLine_clearing {s : State} {t : TrunkNo} (h : (s.trunk t).state = .outClearing) :
    s.decodeLine t = s.decodeClearing t := by
  rw [State.decodeLine, h]

/-- R36: a code that equals the send code of no signal listened for. -/
theorem State.decodeLine_unlisted {s : State} {t : TrunkNo} {code : LineCode}
    (accepted : (s.trunk t).lcr.accepted = some code)
    (h : ∀ row ∈ listened (s.trunk t).role (s.trunk t).state, (s.profiles.get (s.trunk t).profile).codes.of row.1 ≠ code) :
    s.decodeLine t = s.lineAnomaly t code := by
  have decoded : s.decoded t = some (code, none) := by rw [s.decoded_some t accepted, decodeCode_unlisted _ h]
  cases hs : (s.trunk t).state <;> simp only [State.decodeLine, hs, State.decodeIdle, State.decodeClearing, decoded]

/-- R36: the signal decoded is the first one listed whose send code is the accepted code. -/
theorem State.decoded_listed {s : State} {t : TrunkNo} {code : LineCode} {before after : List (LineSignal × LineAction)}
    {sig : LineSignal} {a : LineAction} (accepted : (s.trunk t).lcr.accepted = some code)
    (table : listened (s.trunk t).role (s.trunk t).state = before ++ (sig, a) :: after)
    (hb : ∀ row ∈ before, (s.profiles.get (s.trunk t).profile).codes.of row.1 ≠ code)
    (hs : (s.profiles.get (s.trunk t).profile).codes.of sig = code) : s.decoded t = some (code, some (sig, a)) := by
  rw [s.decoded_some t accepted, table, decodeCode_listed _ hb hs]

theorem State.noteIdle_trunk (s : State) (t : TrunkNo) (sig : LineSignal) :
    (s.noteIdle t sig).trunk t = { s.trunk t with remoteBlock := ((s.noteIdle t sig).trunk t).remoteBlock } := by
  unfold State.noteIdle
  split_ifs <;> simp

theorem State.noteIdle_profile (s : State) (t : TrunkNo) (sig : LineSignal) :
    (s.noteIdle t sig).profileOf t = s.profiles.get (s.trunk t).profile := by
  rw [State.profileOf, State.noteIdle_trunk, (s.noteIdle_inner t sig).profiles]

/-- R36, R37: the action of the signal decoded, in a state that gives nothing to the decadic engine. -/
theorem State.decodeLine_acts {s : State} {t : TrunkNo} {code : LineCode} {sig : LineSignal} {a : LineAction}
    (decoded : s.decoded t = some (code, some (sig, a)))
    (own : (s.trunk t).state ≠ .idle ∧ (s.trunk t).state ≠ .outClearing)
    (plain : (s.trunk t).state.watchesBreaks = false ∨ (s.profiles.get (s.trunk t).profile).method ≠ .decadic) :
    s.decodeLine t = (s.noteIdle t sig).act t a := by
  have plain : ¬((s.trunk t).state.watchesBreaks = true ∧ ((s.noteIdle t sig).profileOf t).method = .decadic) := by
    rw [State.noteIdle_profile]
    rintro ⟨watches, decadic⟩
    rcases plain with h | h
    · rw [h] at watches
      cases watches
    · exact h decadic
  unfold State.decodeLine
  split
  · exact absurd ‹_› own.1
  · exact absurd ‹_› own.2
  · simp only [decoded, if_neg plain]

/-- R36, R37: a decoded signal with no action changes nothing but the remote-block flag. -/
theorem State.decodeLine_nothing {s : State} {t : TrunkNo} {code : LineCode} {sig : LineSignal}
    (decoded : s.decoded t = some (code, some (sig, .nothing)))
    (plain : (s.trunk t).state.watchesBreaks = false ∨ (s.profiles.get (s.trunk t).profile).method ≠ .decadic) :
    s.decodeLine t = s.noteIdle t sig := by
  by_cases idle : (s.trunk t).state = .idle
  · simp only [State.decodeLine, idle, State.decodeIdle, decoded]
  · by_cases clearing : (s.trunk t).state = .outClearing
    · simp only [State.decodeLine, clearing, State.decodeClearing, decoded]
    · exact State.decodeLine_acts decoded ⟨idle, clearing⟩ plain

/-! ### States entered -/

/-- R35: entry to a state, under the profile that the trunk names. -/
theorem State.enter_at {s : State} {t : TrunkNo} {p : Profile} (hp : p = s.profiles.get (s.trunk t).profile)
    (st : TrunkState) :
    s.enter t st = s.mapTrunk t fun r => { r with state := st, sentCode := sentCodeOf p.codes r.role st } := by
  subst hp
  rfl

/-- R38: entry to a free state and its decoding, under the profile that the trunk names. -/
theorem State.enterIdle_at {s : State} {t : TrunkNo} {p : Profile} (hp : p = s.profiles.get (s.trunk t).profile) :
    s.enterIdle t = (s.mapTrunk t fun r => { r with
      state := if r.localBlock then .localBlocked else .idle
      sentCode := sentCodeOf p.codes r.role (if r.localBlock then .localBlocked else .idle) }).idleDecodes t := by
  subst hp
  rw [State.enterIdle_eq]
  exact congrArg (State.idleDecodes · t) (State.mapTrunk_congr _ _ rfl)

/-- R65: what a decoded signal leaves of the trunk's profile. -/
theorem State.noteIdle_names {s : State} {t : TrunkNo} {p : Profile} (hp : p = s.profiles.get (s.trunk t).profile)
    (sig : LineSignal) : p = (s.noteIdle t sig).profiles.get ((s.noteIdle t sig).trunk t).profile :=
  hp.trans (s.noteIdle_profile t sig).symm

/-! ### The actions outside a call -/

/-- R36: B-BLOCK is no idle signal. -/
theorem State.noteIdle_bBlock (s : State) (t : TrunkNo) : s.noteIdle t .bBlock = s := by simp [State.noteIdle_eq]

theorem State.noteIdle_fSeize (s : State) (t : TrunkNo) : s.noteIdle t .fSeize = s := by simp [State.noteIdle_eq]

section Actions

variable {s : State} {t : TrunkNo} {p : Profile} {code : LineCode} {sig : LineSignal}

/-- R37: the row of a decoded signal stands in the table. -/
theorem State.decoded_stands {a : LineAction} (decoded : s.decoded t = some (code, some (sig, a))) :
    a.stands sig (s.trunk t).state = true := by
  unfold State.decoded at decoded
  simp only [Option.map_eq_some_iff, Prod.mk.injEq] at decoded
  obtain ⟨_, _, _, found⟩ := decoded
  exact listened_stands _ _ _ (List.mem_of_find?_eq_some found)

/-- R37, R65: "remote-block flag". -/
theorem State.decodeLine_remoteFlag (decoded : s.decoded t = some (code, some (sig, .remoteFlag))) :
    s.decodeLine t = s.blocks t := by
  have stands := State.decoded_stands decoded
  simp only [LineAction.stands, List.mem_cons, List.not_mem_nil, or_false, decide_eq_true_eq] at stands
  obtain ⟨rfl, h⟩ := stands
  have acts := State.decodeLine_acts decoded (by rcases h with h | h | h <;> simp [h])
    (.inl (by rcases h with h | h | h <;> simp [h, TrunkState.watchesBreaks]))
  rw [acts, State.noteIdle_bBlock]
  rfl

/-- R37, R65: "remote blocking". -/
theorem State.decodeLine_remoteBlocking (hp : p = s.profiles.get (s.trunk t).profile)
    (decoded : s.decoded t = some (code, some (sig, .remoteBlocking))) :
    s.decodeLine t = (s.blocks t).mapTrunk t fun r => { r with
      state := .remoteBlocked, sentCode := p.codes.fIdle } := by
  have stands := State.decoded_stands decoded
  simp only [LineAction.stands, decide_eq_true_eq] at stands
  obtain ⟨rfl, h⟩ := stands
  simp only [State.decodeLine, h, State.decodeIdle, decoded, State.noteIdle_bBlock, State.setRemoteBlock_eq]
  exact State.enter_at (hp.trans (s.blocks_profile t).symm) _

/-- R37, R38: "remote unblocking". -/
theorem State.decodeLine_remoteUnblocking (hp : p = s.profiles.get (s.trunk t).profile)
    (decoded : s.decoded t = some (code, some (sig, .remoteUnblocking))) :
    s.decodeLine t = ((s.noteIdle t sig).mapTrunk t fun r => { r with
      state := if r.localBlock then .localBlocked else .idle
      sentCode := sentCodeOf p.codes r.role (if r.localBlock then .localBlocked else .idle) }).idleDecodes t := by
  have stands := State.decoded_stands decoded
  simp only [LineAction.stands, decide_eq_true_eq] at stands
  rw [State.decodeLine_acts decoded (by simp [stands.2]) (.inl (by simp [stands.2, TrunkState.watchesBreaks]))]
  exact State.enterIdle_at (State.noteIdle_names hp sig)

/-- R70: the idle signal in FAILED and LOCAL-BLOCKED. -/
theorem State.decodeLine_idleSignal (hp : p = s.profiles.get (s.trunk t).profile)
    (decoded : s.decoded t = some (code, some (sig, .idleSignal))) :
    s.decodeLine t =
      if (s.trunk t).state = .failed ∧ (s.trunk t).cause = some .holdLimit then
        ((s.noteIdle t sig).mapTrunk t fun r => { r with
          cause := none, state := if r.localBlock then .localBlocked else .idle
          sentCode := sentCodeOf p.codes r.role (if r.localBlock then .localBlocked else .idle) }).idleDecodes t
      else s.noteIdle t sig := by
  have stands := State.decoded_stands decoded
  simp only [LineAction.stands, decide_eq_true_eq] at stands
  rw [State.decodeLine_acts decoded (by rcases stands with h | h <;> simp [h])
    (.inl (by rcases stands with h | h <;> simp [h, TrunkState.watchesBreaks]))]
  unfold State.act State.idleSignal
  dsimp only
  rw [State.noteIdle_trunk, State.enterIdle_at (p := p) (by simpa using State.noteIdle_names hp sig),
    State.mapTrunk_mapTrunk]

/-- R37, R57: "incoming seizure". -/
theorem State.decodeLine_incomingSeizure (decoded : s.decoded t = some (code, some (sig, .incomingSeizure))) :
    s.decodeLine t = s.incomingSeizure t := by
  have stands := State.decoded_stands decoded
  simp only [LineAction.stands, decide_eq_true_eq] at stands
  obtain ⟨rfl, h⟩ := stands
  simp only [State.decodeLine, h, State.decodeIdle, decoded, State.noteIdle_fSeize]

/-- R37, R55: "release complete". -/
theorem State.decodeLine_releaseComplete (decoded : s.decoded t = some (code, some (sig, .releaseComplete)))
    (hq : (s.trunk t).unit = none ∨ ∀ e ∈ s.callQueue, e.trunk ≠ t) :
    s.decodeLine t = ((s.noteIdle t sig).callEnds t ((s.trunk t).cause.getD .normal)).idleDecodes t := by
  have stands := State.decoded_stands decoded
  simp only [LineAction.stands, decide_eq_true_eq] at stands
  have calls : (s.noteIdle t sig).callQueue = s.callQueue := by
    unfold State.noteIdle
    split_ifs <;> simp
  rw [State.decodeLine_clearing stands]
  simp only [State.decodeClearing, decoded]
  rw [State.finishCall_eq _ t (by rw [State.noteIdle_trunk, calls]; exact hq), State.noteIdle_trunk]

end Actions

end Sys2Proof.Machine
end

section
/-! PROOFS. What the unit decodes outside a call. -/

namespace Sys2Proof.Machine

/-- R37: B-IDLE decoded by an outgoing trunk in IDLE clears its remote-block flag. -/
theorem State.idleDecodes_bIdle {s : State} {t : TrunkNo} {p : Profile} (hp : p = s.profiles.get (s.trunk t).profile)
    (role : (s.trunk t).role = .outgoing) (idle : (s.trunk t).state = .idle)
    (accepted : (s.trunk t).lcr.accepted = some p.codes.bIdle) (distinct : p.codes.bIdle ≠ p.codes.bBlock) :
    s.idleDecodes t = s.unblocks t := by
  simp [State.idleDecodes, accepted, idle, role, ← hp, distinct]

/-- R65: a flag that is clear stays so without a report. -/
theorem State.unblocks_clear {s : State} {t : TrunkNo} (h : (s.trunk t).remoteBlock = false) : s.unblocks t = s :=
  if_neg (by simp [h])

/-- Settles O22. -/
theorem blockingAndUnlistedCodes : Obligations.BlockingAndUnlistedCodes := by
  unfold Obligations.BlockingAndUnlistedCodes
  refine ⟨fun _ => rfl, by decide, ?_⟩
  intro s t p code hp accepted
  have code_of : ∀ {sig : LineSignal}, p.codes.of sig = code →
      (s.profiles.get (s.trunk t).profile).codes.of sig = code := by
    intro sig h
    rw [← hp]
    exact h
  refine ⟨fun _ role idle blocked clear => ?_, fun valid role blocked idle set free => ?_, fun unlisted => ?_, ?_⟩
  · have decoded : s.decoded t = some (code, some (.bBlock, .remoteBlocking)) :=
      State.decoded_listed (before := []) accepted (by rw [role, idle]; rfl) (by simp) (code_of blocked.symm)
    rw [State.decodeLine_remoteBlocking hp decoded, State.blocks, if_neg (by simp [clear]), State.submit_mapTrunk,
      State.mapTrunk_mapTrunk]
  · have distinct : p.codes.bBlock ≠ p.codes.bIdle := by
      simp only [SendCodes.valid, Bool.and_eq_true, bne_iff_ne] at valid
      exact Ne.symm (by tauto)
    have decoded : s.decoded t = some (code, some (.bIdle, .remoteUnblocking)) :=
      State.decoded_listed (before := [(.bBlock, .nothing)]) accepted (by rw [role, blocked]; rfl)
        (by rw [← hp]; simpa [SendCodes.of, idle] using distinct) (code_of idle.symm)
    rw [State.decodeLine_remoteUnblocking hp decoded, State.noteIdle_eq, if_pos (.inl rfl), State.unblocks, if_pos set,
      State.submit_mapTrunk, State.mapTrunk_mapTrunk, State.idleDecodes_bIdle (p := p) (by simpa using hp) (by simpa using role)
        (by simp [free]) (by simp [accepted, idle]) distinct.symm, State.unblocks_clear (by simp)]
    refine congrArg (State.submit · _ _) (State.mapTrunk_congr _ _ ?_)
    simp [free, role, sentCodeOf, sentSignal, SendCodes.of]
  · rw [State.decodeLine_unlisted accepted (by rw [← hp]; exact unlisted)]
    rfl
  · intro before after sig a x table earlier found hx
    have decoded : s.decoded t = some (code, some (sig, a)) :=
      State.decoded_listed accepted table (by rw [← hp]; exact earlier) (code_of found)
    obtain rfl : x = s.noteIdle t sig := hx.trans (s.noteIdle_eq t sig).symm
    refine ⟨?_, ?_, ?_, ?_, ?_, ?_, ?_⟩ <;> rintro rfl
    · intro plain
      refine State.decodeLine_nothing decoded ?_
      have stands := State.decoded_stands decoded
      simp only [LineAction.stands, decide_eq_true_eq] at stands
      rcases plain with h | h
      · exact .inr (hp ▸ h)
      · exact .inl (by simpa using fun watches => h (stands watches))
    · exact State.decodeLine_remoteFlag decoded
    · exact State.decodeLine_remoteBlocking hp decoded
    · exact State.decodeLine_remoteUnblocking hp decoded
    · exact State.decodeLine_idleSignal hp decoded
    · exact State.decodeLine_incomingSeizure decoded
    · exact State.decodeLine_releaseComplete decoded

end Sys2Proof.Machine
end

section
/-! PROOFS. The answers and clear-backs of an outgoing call, the dual seizure, and the host's ANSWER, CLEAR-BACK, BLOCK
and UNBLOCK. -/

namespace Sys2Proof.Machine

/-! ### Order of counts, reports and updates -/

/-- A change of a trunk's record that keeps its group goes under a count. -/
theorem State.mapTrunk_countFor (s : State) (t k : TrunkNo) (f : Traffic → Traffic) (g : Trunk → Trunk)
    (h : (g (s.trunk k)).group = (s.trunk k).group) :
    (s.countFor t f).mapTrunk k g = (s.mapTrunk k g).countFor t f := (s.countFor_mapTrunk t k f g h).symm

/-! ### The answers and clear-backs -/

section Answers

variable {s : State} {t : TrunkNo} {p : Profile} (hp : p = s.profiles.get (s.trunk t).profile)
include hp

/-- R48 -/
theorem State.firstAnswer_eq : s.firstAnswer t = ((s.mapTrunk t fun r => { r with
      state := .outAnswered, sentCode := p.codes.fSeize, timer := none
      record := r.record.map fun k => { k with
        answerTime := some (k.answerTime.getD s.tmb.counter), answerCount := min 255 (k.answerCount + 1) } }).countFor t
    fun c => { c with outAnswered := min 4294967295 (c.outAnswered + 1) }).submit (some t)
      (.answer (s.trunk t).callRef) := by
  unfold State.firstAnswer State.dropTimer State.stampAnswer State.mapRecord
  dsimp only
  rw [State.enter_at (p := p) (by simpa using hp), State.submit_mapTrunk, State.mapTrunk_countFor _ _ _ _ _ rfl]
  simp only [State.mapTrunk_mapTrunk, State.countFor_trunk, State.mapTrunk_trunk]
  rfl

/-- R52 -/
theorem State.clearedBack_eq : s.clearedBack t = (s.mapTrunk t fun r => { r with
      state := .outClearback, sentCode := p.codes.fSeize
      timer := if p.clearBackTimer = 0 then r.timer
        else some { kind := .clearBack, left := 1000 * p.clearBackTimer } }).submit (some t)
      (.clearBack (s.trunk t).callRef) := by
  unfold State.clearedBack State.startTimer
  rw [State.enter_at hp]
  dsimp only
  have names : ∀ b, ((s.mapTrunk t fun r => { r with
      state := .outClearback, sentCode := sentCodeOf p.codes r.role .outClearback }).submit (some t) b).profileOf t = p := by
    intro b
    simp [State.profileOf, ← hp]
  rw [names]
  split_ifs with h
  · rfl
  · simp only [State.submit_mapTrunk, State.mapTrunk_mapTrunk]
    rfl

/-- R52 -/
theorem State.reAnswered_eq : s.reAnswered t = (s.mapTrunk t fun r => { r with
      state := .outAnswered, sentCode := p.codes.fSeize, timer := none
      record := r.record.map fun k => { k with answerCount := min 255 (k.answerCount + 1) } }).submit (some t)
      (.reAnswer (s.trunk t).callRef) := by
  unfold State.reAnswered State.dropTimer State.mapRecord
  dsimp only
  rw [State.enter_at (p := p) (by simpa using hp), State.submit_mapTrunk]
  simp only [State.mapTrunk_mapTrunk, State.mapTrunk_trunk]
  rfl

end Answers

/-! ### The end of register work -/

/-- R40: the register work of a trunk in no relay link. -/
theorem State.endRegisterWork_quits {s : State} {t : TrunkNo} (o : RegOutcome) (hl : (s.trunk t).link = none)
    (hq : (s.trunk t).unit = none ∨ ∀ e ∈ s.callQueue, e.trunk ≠ t) : s.endRegisterWork t o = s.quitsWork t id := by
  rw [State.endRegisterWork_unlinked _ _ _ hl, s.stopRegister_quits t hq]

/-- R94: a trunk that waits for no unit has no entry to remove. -/
theorem State.quitsWork_absent {s : State} {t : TrunkNo} (f : Trunk → Trunk) (hq : ∀ e ∈ s.callQueue, e.trunk ≠ t) :
    s.quitsWork t f = s.endsWork t f := by rw [State.quitsWork, s.filtered_eq t hq]

/-- The profile that a trunk names after its register work. -/
theorem State.quitsWork_names {s : State} {t : TrunkNo} {p : Profile} (hp : p = s.profiles.get (s.trunk t).profile) :
    p = (s.quitsWork t id).profiles.get ((s.quitsWork t id).trunk t).profile := by
  rw [(s.quitsWork_keeps t id).1, State.quitsWork_trunk]
  exact hp

/-- R47: the clear-back before answer, from the state that the end of the register work leaves. -/
theorem State.clearBackBeforeAnswer_eq {s x : State} {t : TrunkNo} {p : Profile}
    (hx : s.endRegisterWork t (.reject .congestion) = x) (hp : p = x.profiles.get (x.trunk t).profile) :
    s.clearBackBeforeAnswer t = ((x.mapTrunk t fun r => { r with
        state := .outRejected, sentCode := p.codes.fSeize, timer := none
        cause := some (r.cause.getD .congestion) }).submit (some t)
          (.registerEnd (x.trunk t).callRef .congestion (some ((x.trunk t).cause.getD .congestion)))).countFor t
      fun c => { c with failures := min 4294967295 (c.failures + 1) } := by
  unfold State.clearBackBeforeAnswer
  dsimp only
  rw [hx, State.enter_at (p := p) (by simpa [State.dropTimer, State.giveCause] using hp)]
  simp only [State.dropTimer, State.giveCause, State.mapTrunk_mapTrunk, State.mapTrunk_trunk, orElse_some]
  rfl

/-- R36, R37: the action of a signal that is no idle signal, in a state of an outgoing call. -/
theorem State.decodeLine_called {s : State} {t : TrunkNo} {p : Profile} {before after : List (LineSignal × LineAction)}
    {sig : LineSignal} {a : LineAction} (hp : p = s.profiles.get (s.trunk t).profile) {code : LineCode}
    (accepted : (s.trunk t).lcr.accepted = some code)
    (table : listened (s.trunk t).role (s.trunk t).state = before ++ (sig, a) :: after)
    (earlier : ∀ row ∈ before, p.codes.of row.1 ≠ code) (found : p.codes.of sig = code)
    (busy : sig ≠ .bIdle ∧ sig ≠ .fIdle) (own : (s.trunk t).state ≠ .idle ∧ (s.trunk t).state ≠ .outClearing)
    (plain : (s.trunk t).state.watchesBreaks = false) : s.decodeLine t = s.act t a := by
  subst hp
  rw [State.decodeLine_acts (State.decoded_listed accepted table earlier found) own (.inl plain), State.noteIdle_eq,
    if_neg (by simp [busy])]

/-- R23: in a valid profile B-ANSWER differs from B-ACK and from B-CLEARBACK. -/
theorem SendCodes.valid_answers {c : SendCodes} (h : c.valid = true) : c.bAck ≠ c.bAnswer ∧ c.bClearback ≠ c.bAnswer := by
  simp only [SendCodes.valid, Bool.and_eq_true, bne_iff_ne] at h
  tauto

/-- Settles O20. -/
theorem answersAndClearBacksOfAnOutgoingCall : Obligations.AnswersAndClearBacksOfAnOutgoingCall := by
  unfold Obligations.AnswersAndClearBacksOfAnOutgoingCall
  intro s t p hp valid
  obtain ⟨ackAnswer, clearAnswer⟩ := SendCodes.valid_answers valid
  refine ⟨fun state code => ?_, fun state code => ?_, fun state code => ?_, fun state code hl hq => ?_,
    fun state distinct code hl hq => ?_⟩
  · rw [State.decodeLine_called (before := [(.bAck, .nothing)]) hp code (by rw [state]; rfl)
      (by simpa [SendCodes.of] using ackAnswer) rfl (by simp) (by simp [state]) (by rw [state]; rfl)]
    exact State.firstAnswer_eq hp
  · rw [State.decodeLine_called (before := [(.bAnswer, .nothing)]) hp code (by rw [state]; rfl)
      (by simpa [SendCodes.of] using clearAnswer.symm) rfl (by simp) (by simp [state]) (by rw [state]; rfl)]
    exact State.clearedBack_eq hp
  · rw [State.decodeLine_called (before := [(.bClearback, .nothing)]) hp code (by rw [state]; rfl)
      (by simpa [SendCodes.of] using clearAnswer) rfl (by simp) (by simp [state]) (by rw [state]; rfl)]
    exact State.reAnswered_eq hp
  · rw [State.decodeLine_called (before := [(.bAck, .nothing)]) hp code (by rw [state]; rfl)
      (by simpa [SendCodes.of] using ackAnswer) rfl (by simp) (by simp [state]) (by rw [state]; rfl)]
    change (s.endRegisterWork t .complete).firstAnswer t = _
    rw [State.endRegisterWork_quits _ hl (.inr hq), State.firstAnswer_eq (State.quitsWork_names hp),
      State.quitsWork_mapTrunk, State.quitsWork_trunk, (s.quitsWork_keeps t id).2, State.quitsWork_absent _ hq]
    rfl
  · have called : s.decodeLine t = s.clearBackBeforeAnswer t := by
      rcases state with state | state
      · exact State.decodeLine_called (before := [(.bAck, .nothing), (.bAnswer, .earlyAnswer)])
          (a := .clearBackBeforeAnswer) hp code (by rw [state]; rfl)
          (by simpa [SendCodes.of] using ⟨distinct.symm, clearAnswer.symm⟩) rfl (by simp) (by simp [state])
          (by rw [state]; rfl)
      · exact State.decodeLine_called (before := [(.bAck, .nothing), (.bAnswer, .answer)])
          (a := .clearBackBeforeAnswer) hp code (by rw [state]; rfl)
          (by simpa [SendCodes.of] using ⟨distinct.symm, clearAnswer.symm⟩) rfl (by simp) (by simp [state])
          (by rw [state]; rfl)
    rw [called, State.clearBackBeforeAnswer_eq (State.endRegisterWork_quits _ hl (.inr hq)) (State.quitsWork_names hp),
      State.quitsWork_mapTrunk, State.quitsWork_trunk, State.quitsWork_absent _ hq]
    rfl

end Sys2Proof.Machine
end

section
/-! PROOFS. The dual seizure, and the host's ANSWER, CLEAR-BACK, BLOCK and UNBLOCK. -/

namespace Sys2Proof.Machine

/-! ### The dual seizure -/

/-- R64: a trunk in no relay link that yields to a far seizure. -/
theorem State.dualSeizure_yields {s : State} {t : TrunkNo} (hg : (s.trunk t).glare = .yield)
    (hl : (s.trunk t).link = none) :
    s.dualSeizure t = ((s.submit (some t) (.glare (s.trunk t).callRef)).mapTrunk t fun r =>
      { r with timer := none, record := none, send := { digits := [], endFlag := false, pos := 1 } }).incomingSeizure t := by
  unfold State.dualSeizure State.dropTimer
  rw [hg]
  dsimp only
  rw [State.mapTrunk_mapTrunk, State.carryBack_unlinked _ _ _ (by simpa using hl)]

/-- Settles O21. -/
theorem dualSeizureFollowsTheGlareRole : Obligations.DualSeizureFollowsTheGlareRole := by
  unfold Obligations.DualSeizureFollowsTheGlareRole
  intro s t p hp bothWay role state code
  have distinct : p.codes.bAck ≠ p.codes.fSeize := by
    simp only [SendCodes.validBothWay, Bool.and_eq_true, bne_iff_ne] at bothWay
    exact Ne.symm bothWay.1.2
  have called : s.decodeLine t = s.dualSeizure t :=
    State.decodeLine_called (before := [(.bAck, .acknowledgement)]) (a := .dualSeizure) hp code (by rw [state, role]; rfl)
      (by simpa [SendCodes.of] using distinct) rfl (by simp) (by simp [state]) (by rw [state]; rfl)
  refine ⟨fun priority => ?_, fun yields hl => ?_⟩
  · rw [called, State.dualSeizure, priority]
  · rw [called, State.dualSeizure_yields yields hl]

/-! ### The host's commands on one trunk -/

theorem exec_answer (s : State) (p : List Byte) : exec (.answer p) s = .next (s.takeAnswer p) := rfl
theorem exec_clearBack (s : State) (p : List Byte) : exec (.clearBack p) s = .next (s.takeClearBack p) := rfl
theorem exec_release (s : State) (p : List Byte) : exec (.release p) s = .next (s.takeRelease p) := rfl
theorem exec_block (s : State) (p : List Byte) : exec (.block p) s = .next (s.takeBlock p) := rfl
theorem exec_unblock (s : State) (p : List Byte) : exec (.unblock p) s = .next (s.takeUnblock p) := rfl
theorem exec_resetTrunk (s : State) (p : List Byte) : exec (.resetTrunk p) s = .next (s.takeResetTrunk p) := rfl

section Commands

variable {s : State} {t : TrunkNo} (equipped : (s.trunk t).role ≠ .unequipped)
include equipped

/-- R39, R59 -/
theorem State.takeAnswer_ok (h : (s.trunk t).state.answerable = true) :
    s.takeAnswer [byte t.val] = (s.answerCall t).sendReply 0x13 .ok [] := by
  unfold State.takeAnswer
  rw [s.judgeTrunk_ok t _ equipped h]
  rfl

/-- R39, R60 -/
theorem State.takeClearBack_ok (h : (s.trunk t).state = .inAnswered) :
    s.takeClearBack [byte t.val] = (s.enter t .inClearback).sendReply 0x14 .ok [] := by
  unfold State.takeClearBack
  rw [s.judgeTrunk_ok t _ equipped (by simp [h])]
  rfl

/-- R39, R54 -/
theorem State.takeRelease_ok (h : (s.trunk t).state.releasable = true) :
    s.takeRelease [byte t.val] = (s.releaseCall t).sendReply 0x15 .ok [] := by
  unfold State.takeRelease
  rw [s.judgeTrunk_ok t _ equipped h]
  rfl

/-- R39, R66 -/
theorem State.takeBlock_ok : s.takeBlock [byte t.val] = (s.blockTrunk t).sendReply 0x16 .ok [] := by
  unfold State.takeBlock
  rw [s.judgeTrunk_ok t _ equipped rfl]
  rfl

/-- R39, R67 -/
theorem State.takeUnblock_ok : s.takeUnblock [byte t.val] = (s.unblockTrunk t).sendReply 0x17 .ok [] := by
  unfold State.takeUnblock
  rw [s.judgeTrunk_ok t _ equipped rfl]
  rfl

/-- R39, R71 -/
theorem State.takeResetTrunk_ok : s.takeResetTrunk [byte t.val] = (s.resetTrunk t).sendReply 0x18 .ok [] := by
  unfold State.takeResetTrunk
  rw [s.judgeTrunk_ok t _ equipped rfl]
  rfl

end Commands

section Answers

variable {s : State} {t : TrunkNo} {p : Profile} (hp : p = s.profiles.get (s.trunk t).profile)
include hp

/-- R59: the first answer of an incoming call. -/
theorem State.answerCall_first (h : (s.trunk t).state = .inWaitAnswer) :
    s.answerCall t = (s.mapTrunk t fun r => { r with
      state := .inAnswered, sentCode := p.codes.bAnswer
      record := r.record.map fun k => { k with
        answerTime := some (k.answerTime.getD s.tmb.counter), answerCount := min 255 (k.answerCount + 1) } }).countFor t
      fun c => { c with inAnswered := min 4294967295 (c.inAnswered + 1) } := by
  unfold State.answerCall State.stampAnswer State.mapRecord
  rw [if_pos h, State.enter_at (p := p) (by simpa using hp), State.mapTrunk_countFor _ _ _ _ _ rfl, State.mapTrunk_mapTrunk]
  rfl

/-- R59: a further answer. -/
theorem State.answerCall_again (h : (s.trunk t).state = .inClearback) :
    s.answerCall t = s.mapTrunk t fun r => { r with
      state := .inAnswered, sentCode := p.codes.bAnswer
      record := r.record.map fun k => { k with answerCount := min 255 (k.answerCount + 1) } } := by
  unfold State.answerCall State.mapRecord
  rw [if_neg (by simp [h]), State.enter_at (p := p) (by simpa using hp), State.mapTrunk_mapTrunk]
  rfl

/-- R66: a free trunk is taken into LOCAL-BLOCKED. -/
theorem State.blockTrunk_free (h : (s.trunk t).state = .idle ∨ (s.trunk t).state = .remoteBlocked) :
    s.blockTrunk t = s.mapTrunk t fun r => { r with
      localBlock := true, state := .localBlocked
      sentCode := if r.role = .outgoing then p.codes.fIdle else p.codes.bBlock } := by
  unfold State.blockTrunk
  dsimp only
  rw [if_pos (by simpa using h), State.enter_at (p := p) (by simpa using hp), State.mapTrunk_mapTrunk]
  refine State.mapTrunk_congr _ _ ?_
  by_cases out : (s.trunk t).role = .outgoing <;> simp [sentCodeOf, sentSignal, SendCodes.of, out]

/-- R67: a trunk leaves LOCAL-BLOCKED. -/
theorem State.unblockTrunk_blocked (h : (s.trunk t).state = .localBlocked) :
    s.unblockTrunk t = (s.mapTrunk t fun r => { r with
      localBlock := false, state := .idle
      sentCode := if r.role = .incoming then p.codes.bIdle else p.codes.fIdle }).idleDecodes t := by
  unfold State.unblockTrunk
  dsimp only
  rw [if_pos (by simpa using h), State.enterIdle_at (p := p) (by simpa using hp), State.mapTrunk_mapTrunk]
  refine congrArg (State.idleDecodes · t) (State.mapTrunk_congr _ _ ?_)
  by_cases inc : (s.trunk t).role = .incoming <;> simp [sentCodeOf, sentSignal, SendCodes.of, inc]

end Answers

/-- R36: nothing is decoded while no code has been accepted. -/
theorem State.idleDecodes_unknown {s : State} {t : TrunkNo} (h : (s.trunk t).lcr.accepted = none) : s.idleDecodes t = s := by
  simp [State.idleDecodes, h]

/-- Settles O47. -/
theorem hostAnswersClearsBackBlocksAndUnblocks : Obligations.HostAnswersClearsBackBlocksAndUnblocks := by
  unfold Obligations.HostAnswersClearsBackBlocksAndUnblocks
  intro s t p hp equipped
  refine ⟨fun state => ?_, fun state => ?_, fun state => ?_, fun free => ?_, fun idle blocked => ?_,
    fun state y hy => ?_, fun state => ?_⟩
  · rw [exec_answer, State.takeAnswer_ok equipped (by rw [state]; rfl), State.answerCall_first hp state]
  · rw [exec_answer, State.takeAnswer_ok equipped (by rw [state]; rfl), State.answerCall_again hp state]
  · rw [exec_clearBack, State.takeClearBack_ok equipped state, State.enter_at hp]
    rfl
  · rw [exec_block, State.takeBlock_ok equipped, State.blockTrunk_free hp free]
  · rw [exec_block, State.takeBlock_ok equipped, State.blockTrunk]
    rw [if_neg (by simp [idle, blocked])]
  · have freed : exec (.unblock [byte t.val]) s = .next ((y.idleDecodes t).sendReply 0x17 .ok []) := by
      rw [exec_unblock, State.takeUnblock_ok equipped, State.unblockTrunk_blocked hp state, hy]
    refine ⟨freed, fun unknown => ?_⟩
    rw [freed, State.idleDecodes_unknown (by simpa [hy] using unknown)]
  · rw [exec_unblock, State.takeUnblock_ok equipped, State.unblockTrunk]
    rw [if_neg (by simp [state])]

end Sys2Proof.Machine
end

section
/-! PROOFS. The incoming seizure and the acknowledgement of an outgoing seizure. -/

namespace Sys2Proof.Machine

/-- R176: a count for the group of a trunk, where the counters and the group are still those of an earlier state. -/
theorem State.countFor_counts {s x : State} (t : TrunkNo) (f : Traffic → Traffic)
    (group : (x.trunk t).group = (s.trunk t).group) (traffic : x.traffic = s.traffic) :
    s.countsFor (x.countFor t f) t (f (s.traffic.get (s.trunk t).group)) := by
  unfold State.countsFor
  simp only [State.countFor_traffic, group, traffic]
  exact ⟨if_pos trivial, fun g hg => if_neg hg.symm⟩

/-! ### The incoming seizure -/

/-- R57, R169, R170: an incoming call as it stands before its register phase starts. -/
def State.opensIncoming (s : State) (t : TrunkNo) (p : Profile) : State :=
  ((({ s with sequence := s.sequence + 1 } : State).mapTrunk t fun r => { r with
    callRef := some (s.sequence + 1)
    record := some
      { ref := s.sequence + 1, trunk := t, direction := .incoming, category := none, seizeTime := s.tmb.counter,
        ackTime := none, answerTime := none, answerCount := 0, digits := [], conversation := 0, occupancy := 0 }
    state := .inSelecting, sentCode := p.codes.bAck }).countFor t fun c => { c with
      inSeizures := min 4294967295 (c.inSeizures + 1) }).submit (some t) (.seizedIn (some (s.sequence + 1)))

section Seizure

variable {s : State} {t : TrunkNo} {p : Profile}

theorem State.incomingSeizure_eq (hp : p = s.profiles.get (s.trunk t).profile) :
    s.incomingSeizure t = (s.opensIncoming t p).startReceiving t := by
  unfold State.incomingSeizure State.openRecord
  dsimp only
  rw [State.enter_at (p := p) (by rw [State.countFor_trunk, State.mapTrunk_trunk]; exact hp), State.mapTrunk_countFor _ _ _ _ _ rfl,
    State.mapTrunk_mapTrunk]
  rfl

theorem State.opensIncoming_trunk (k : TrunkNo) : (s.opensIncoming t p).trunk k =
    if k = t then { s.trunk t with
      callRef := some (s.sequence + 1)
      record := some { ref := s.sequence + 1, trunk := t, direction := .incoming, category := none, seizeTime := s.tmb.counter }
      state := .inSelecting, sentCode := p.codes.bAck }
    else s.trunk k := by
  unfold State.opensIncoming
  rw [State.submit_trunk, State.countFor_trunk, State.mapTrunk_trunk_at]
  rfl

theorem State.opensIncoming_names (hp : p = s.profiles.get (s.trunk t).profile) : (s.opensIncoming t p).profileOf t = p := by
  rw [State.profileOf, State.opensIncoming_trunk, if_pos rfl, State.opensIncoming, State.submit_profiles, hp]
  rfl

theorem State.opensIncoming_counts : s.countsFor (s.opensIncoming t p) t { s.traffic.get (s.trunk t).group with
    inSeizures := min 4294967295 ((s.traffic.get (s.trunk t).group).inSeizures + 1) } := by
  unfold State.countsFor State.opensIncoming
  rw [State.submit_traffic]
  exact State.countFor_counts _ _ (by rw [State.mapTrunk_trunk]; rfl) rfl

/-- R57: what the start of the register phase leaves of a trunk in IN-SELECTING. -/
structure State.startsReceiving (y u : State) (t : TrunkNo) (p : Profile) : Prop where
  inner : Inner y u
  call : (u.trunk t).callRef = (y.trunk t).callRef ∧ (u.trunk t).record = (y.trunk t).record
  sentCode : (u.trunk t).sentCode = p.codes.bAck
  state : (u.trunk t).state = (if p.method = .noRegister then .inWaitAnswer else .inSelecting)
  counts : u.sequence = y.sequence ∧ u.traffic = y.traffic
  others : y.sparesOthers u t

/-- R58: with no register method the number is complete at once. -/
theorem State.startReceiving_none (hp : s.profileOf t = p) (state : (s.trunk t).state = .inSelecting)
    (method : p.method = .noRegister) : s.startReceiving t = s.endsIn t .complete ∧ s.completedIn (s.startReceiving t) t := by
  have e : s.startReceiving t = s.inOutcome t .complete := by rw [State.startReceiving, hp, method]
  have ends := (s.inOutcome_ends s t .complete state (.refl s) (fun _ _ => rfl) rfl rfl rfl rfl).1
  exact ⟨e.trans (s.inOutcome_eq t _ state), e ▸ ends⟩

/-- R78: the receiving context of a decadic register phase. -/
theorem State.startReceiving_decadic (hp : s.profileOf t = p) (method : p.method = .decadic) :
    s.startReceiving t = s.mapTrunk t fun r => { r with
      lcr := { r.lcr with mode := .pulse }
      decadic := some (.receiving
        { phase := .between, line := .made, since := 0, pulses := 0,
          wait := some { kind := .firstDigit, left := 1000 * p.firstDigitWait }, digitEnd := none, clearRec := none,
          complete := false }) } := by
  rw [State.startReceiving, hp, method]
  dsimp only
  rw [State.setFilter, State.mapTrunk_mapTrunk]
  rfl

theorem State.startReceiving_tone (hp : s.profileOf t = p) (method : p.method = .tone) :
    s.startReceiving t = s.callRequest t .receiver := by rw [State.startReceiving, hp, method]

theorem State.startReceiving_starts (hp : s.profileOf t = p) (state : (s.trunk t).state = .inSelecting)
    (sent : (s.trunk t).sentCode = p.codes.bAck) : s.startsReceiving (s.startReceiving t) t p := by
  have inner := s.startReceiving_inner t
  have pool : PoolWork s (s.startReceiving t) → p.method ≠ .noRegister → s.startsReceiving (s.startReceiving t) t p := by
    intro pool method
    have same := pool.trunks t
    exact ⟨inner, by rw [same]; exact ⟨rfl, rfl⟩, by rw [same]; exact sent, by rw [same, if_neg method]; exact state,
      ⟨pool.sequence, pool.traffic⟩, pool.spares t⟩
  cases method : p.method with
  | noRegister =>
    obtain ⟨⟨_, call, frame⟩, state', sent', _, _, traffic⟩ := (State.startReceiving_none hp state method).2
    exact ⟨inner, ⟨call.2.1, call.1⟩, sent'.trans (by rw [← hp]; rfl), by rw [if_pos method]; exact state',
      ⟨frame.2.2.2, traffic⟩, frame.2.1⟩
  | decadic =>
    have e := State.startReceiving_decadic hp method
    rw [e] at inner ⊢
    refine ⟨inner, ?_, ?_, ?_, ⟨rfl, rfl⟩, fun k hk => ?_⟩
    · rw [State.mapTrunk_trunk]
      exact ⟨rfl, rfl⟩
    · rw [State.mapTrunk_trunk]
      exact sent
    · rw [State.mapTrunk_trunk, if_neg (by simp [method])]
      exact state
    · rw [State.mapTrunk_trunk_ne _ _ hk]
  | tone =>
    exact pool (by rw [State.startReceiving_tone hp method]; exact s.callRequest_pool t _) (by simp [method])

/-- R57: what an incoming seizure leaves. -/
structure State.seizedIncoming (s u : State) (t : TrunkNo) (p : Profile) : Prop where
  call : u.sequence = s.sequence + 1 ∧ (u.trunk t).callRef = some (s.sequence + 1) ∧
    (u.trunk t).record = some
      { ref := s.sequence + 1, trunk := t, direction := .incoming, category := none, seizeTime := s.tmb.counter }
  sentCode : (u.trunk t).sentCode = p.codes.bAck
  state : (u.trunk t).state = (if p.method = .noRegister then .inWaitAnswer else .inSelecting)
  report : u.reported (some t) (.seizedIn (some (s.sequence + 1)))
  count : s.countsFor u t { s.traffic.get (s.trunk t).group with
    inSeizures := min 4294967295 ((s.traffic.get (s.trunk t).group).inSeizures + 1) }
  frame : s.keepsSettings u ∧ s.sparesOthers u t

theorem State.incomingSeizure_seized (hp : p = s.profiles.get (s.trunk t).profile) :
    s.seizedIncoming (s.incomingSeizure t) t p := by
  have self := (State.opensIncoming_trunk (s := s) (t := t) (p := p) t).trans (if_pos rfl)
  have starts := State.startReceiving_starts (State.opensIncoming_names hp) (by rw [self]) (by rw [self])
  rw [← State.incomingSeizure_eq hp] at starts
  obtain ⟨inner, ⟨ref, record⟩, sent, state, ⟨sequence, traffic⟩, others⟩ := starts
  refine ⟨⟨sequence.trans ?_, ref.trans (by rw [self]), record.trans (by rw [self])⟩, sent, state,
    inner.reported rfl (State.submit_reported _ _ rfl), ?_, (s.incomingSeizure_inner t).keeps, fun k hk => ?_⟩
  · rw [State.opensIncoming, State.submit_sequence]
    rfl
  · unfold State.countsFor
    rw [traffic]
    exact State.opensIncoming_counts
  · have other := others k hk
    rwa [State.opensIncoming_trunk, if_neg hk] at other

end Seizure

/-- Settles O15. -/
theorem farSeizureOpensAnIncomingCall : Obligations.FarSeizureOpensAnIncomingCall := by
  unfold Obligations.FarSeizureOpensAnIncomingCall
  intro s u t p hp state role code hu
  obtain ⟨after, table⟩ : ∃ after, listened (s.trunk t).role (s.trunk t).state =
      [] ++ (.fSeize, .incomingSeizure) :: after := by
    rcases role with role | role <;> exact ⟨_, by rw [state, role]; rfl⟩
  have decoded := State.decoded_listed code table (by simp) (by rw [← hp]; rfl)
  have seizure : u = s.incomingSeizure t := hu.trans (State.decodeLine_incomingSeizure decoded)
  have seized := State.incomingSeizure_seized hp
  rw [← seizure] at seized
  obtain ⟨⟨sequence, ref, record⟩, sent, state', report, count, settings, others⟩ := seized
  have whole : u = (s.opensIncoming t p).startReceiving t := seizure.trans (State.incomingSeizure_eq hp)
  have names := State.opensIncoming_names hp
  have self := (State.opensIncoming_trunk (s := s) (t := t) (p := p) t).trans (if_pos rfl)
  have selecting : ((s.opensIncoming t p).trunk t).state = .inSelecting := by rw [self]
  refine ⟨sequence, ref, record, sent, report, count, fun method => ?_, fun method => ?_, fun method => ?_, settings,
    others, ?_⟩
  · obtain ⟨_, _, _, _, complete, _⟩ := (State.startReceiving_none names selecting method).2
    rw [← whole, self] at complete
    exact ⟨state'.trans (if_pos method), complete⟩
  · refine ⟨state'.trans (if_neg (by simp [method])), ?_⟩
    rw [whole, State.startReceiving_decadic names method, State.mapTrunk_trunk]
    exact ⟨rfl, rfl⟩
  · refine ⟨state'.trans (if_neg (by simp [method])), ?_⟩
    rw [whole, State.startReceiving_tone names method]
    exact State.callRequest_got _ t .receiver
  · rintro y rfl
    refine ⟨fun method => whole.trans (State.startReceiving_none names selecting method).1,
      fun method => whole.trans (State.startReceiving_decadic names method), fun method => ?_⟩
    rw [whole, State.startReceiving_tone names method]
    exact State.callRequest_asks _ t .receiver

end Sys2Proof.Machine
end

section
/-! PROOFS. The acknowledgement of an outgoing seizure. -/

namespace Sys2Proof.Machine

/-- R90: a call request leaves the trunk's call as it is. -/
theorem State.callRequest_call (s : State) (t : TrunkNo) (role : UnitRole) :
    ((s.callRequest t role).trunk t).state = (s.trunk t).state ∧
      ((s.callRequest t role).trunk t).timer = (s.trunk t).timer := by
  rw [(s.callRequest_pool t role).trunks t]
  exact ⟨rfl, rfl⟩

section Acknowledgement

variable {s : State} {t : TrunkNo} {p : Profile} (hp : p = s.profiles.get (s.trunk t).profile)
include hp

/-- R44, R51: with no register method the answer is waited for at once. -/
theorem State.acknowledged_none (method : p.method = .noRegister) :
    s.acknowledged t = (s.mapTrunk t fun r => { r with
      record := r.record.map fun k => { k with ackTime := some s.tmb.counter }
      state := .outWaitAnswer, sentCode := p.codes.fSeize
      timer := if p.answerWait = 0 then none else some { kind := .answerWait, left := 1000 * p.answerWait } }).submit
        (some t) (.acknowledged (s.trunk t).callRef) := by
  have names : ∀ f : Trunk → Trunk, (f (s.trunk t)).profile = (s.trunk t).profile → (s.mapTrunk t f).profileOf t = p :=
    State.mapTrunk_profile hp
  unfold State.acknowledged State.enterWaitAnswer State.enter State.startTimer State.dropTimer State.mapRecord
  simp only [State.mapTrunk_mapTrunk, State.submit_profileOf, State.submit_mapTrunk, State.mapTrunk_trunk]
  rw [names _ rfl]
  simp only [method]
  rw [names _ rfl]
  split_ifs with h <;> rfl

/-- R44, R73: a decadic register phase begins with an inter-digit pause. -/
theorem State.acknowledged_decadic (method : p.method = .decadic) :
    s.acknowledged t = (s.mapTrunk t fun r => { r with
      record := r.record.map fun k => { k with ackTime := some s.tmb.counter }
      state := .outSelecting, sentCode := p.codes.fSeize, timer := none
      decadic := some (.sending { phase := .pause, breaks := 0, interrupted := false, timer := some p.sendPause }) }).submit
        (some t) (.acknowledged (s.trunk t).callRef) := by
  have names : ∀ f : Trunk → Trunk, (f (s.trunk t)).profile = (s.trunk t).profile → (s.mapTrunk t f).profileOf t = p :=
    State.mapTrunk_profile hp
  unfold State.acknowledged State.enter State.dropTimer State.mapRecord
  simp only [State.mapTrunk_mapTrunk, State.submit_profileOf, State.submit_mapTrunk, State.mapTrunk_trunk]
  rw [names _ rfl]
  simp only [method]
  rfl

/-- R44, R89: a tone register phase asks for a unit. -/
theorem State.acknowledged_tone (method : p.method = .tone) :
    s.acknowledged t = ((s.mapTrunk t fun r => { r with
      record := r.record.map fun k => { k with ackTime := some s.tmb.counter }
      state := .outSelecting, sentCode := p.codes.fSeize, timer := none }).submit
        (some t) (.acknowledged (s.trunk t).callRef)).callRequest t .sender := by
  have names : ∀ f : Trunk → Trunk, (f (s.trunk t)).profile = (s.trunk t).profile → (s.mapTrunk t f).profileOf t = p :=
    State.mapTrunk_profile hp
  unfold State.acknowledged State.enter State.dropTimer State.mapRecord
  simp only [State.mapTrunk_mapTrunk, State.submit_profileOf, State.submit_mapTrunk, State.mapTrunk_trunk]
  rw [names _ rfl]
  simp only [method]
  rfl

/-- R44: whatever the register method, the acknowledgement is stamped and reported, F-SEIZE stays sent, and the pool works
at most. -/
theorem State.acknowledged_pool : ∃ f : Trunk → Trunk,
    PoolWork ((s.mapTrunk t f).submit (some t) (.acknowledged (s.trunk t).callRef)) (s.acknowledged t) ∧
      (f (s.trunk t)).callRef = (s.trunk t).callRef ∧
      (f (s.trunk t)).record = (s.trunk t).record.map (fun r => { r with ackTime := some s.tmb.counter }) ∧
      (f (s.trunk t)).sentCode = p.codes.fSeize := by
  cases method : p.method with
  | noRegister => exact ⟨_, by rw [State.acknowledged_none hp method]; exact .refl _, rfl, rfl, rfl⟩
  | decadic => exact ⟨_, by rw [State.acknowledged_decadic hp method]; exact .refl _, rfl, rfl, rfl⟩
  | tone => exact ⟨_, by rw [State.acknowledged_tone hp method]; exact State.callRequest_pool _ t _, rfl, rfl, rfl⟩

theorem State.acknowledged_reported : (s.acknowledged t).reported (some t) (.acknowledged (s.trunk t).callRef) := by
  cases method : p.method with
  | noRegister =>
    rw [State.acknowledged_none hp method]
    exact State.submit_reported _ _ rfl
  | decadic =>
    rw [State.acknowledged_decadic hp method]
    exact State.submit_reported _ _ rfl
  | tone =>
    rw [State.acknowledged_tone hp method]
    exact (State.callRequest_inner _ t _).reported rfl (State.submit_reported _ _ rfl)

end Acknowledgement

/-- Settles O16. -/
theorem acknowledgementStartsTheRegisterPhase : Obligations.AcknowledgementStartsTheRegisterPhase := by
  unfold Obligations.AcknowledgementStartsTheRegisterPhase
  intro s u t p hp state code hu
  obtain ⟨after, table⟩ : ∃ after, listened (s.trunk t).role (s.trunk t).state = [] ++ (.bAck, .acknowledgement) :: after := by
    rw [state]
    cases (s.trunk t).role <;> exact ⟨_, rfl⟩
  obtain rfl : u = s.acknowledged t := hu.trans (State.decodeLine_called (a := .acknowledgement) hp code table (by simp) rfl
    (by simp) (by simp [state]) (by rw [state]; rfl))
  obtain ⟨f, pool, ref, record, sent⟩ := State.acknowledged_pool hp
  have same := pool.trunks t
  rw [State.submit_trunk, State.mapTrunk_trunk] at same
  have none_ := State.acknowledged_none hp
  have decadic := State.acknowledged_decadic hp
  have tone := State.acknowledged_tone hp
  refine ⟨by rw [same]; exact ref, by rw [same]; exact record, by rw [same]; exact sent, State.acknowledged_reported hp,
    fun method => ?_, fun method => ?_, fun method => ?_, ?_, ?_, (s.acknowledged_inner t).keeps, fun k hk => ?_,
    none_, decadic, fun method => ?_⟩
  · rw [none_ method, State.submit_trunk, State.mapTrunk_trunk]
    exact ⟨rfl, rfl⟩
  · rw [decadic method, State.submit_trunk, State.mapTrunk_trunk]
    exact ⟨rfl, rfl, rfl⟩
  · rw [tone method]
    obtain ⟨kept, timer⟩ := State.callRequest_call ((s.mapTrunk t _).submit (some t) _) t .sender
    exact ⟨kept.trans (by rw [State.submit_trunk, State.mapTrunk_trunk]),
      timer.trans (by rw [State.submit_trunk, State.mapTrunk_trunk]), State.callRequest_got _ t .sender⟩
  · rw [pool.sequence, State.submit_sequence, State.mapTrunk_sequence]
  · rw [pool.traffic, State.submit_traffic, State.mapTrunk_traffic]
  · have other := pool.trunks k
    rwa [State.submit_trunk, State.mapTrunk_trunk_ne _ _ hk] at other
  · rw [tone method]
    exact State.callRequest_asks _ t .sender

end Sys2Proof.Machine
end

section
/-! PROOFS. What the end of register work leaves alone, and the clear-forward at an incoming trunk. -/

namespace Sys2Proof.Machine

/-! ### Frames -/

/-- An inner operation after a change that keeps the settings keeps them. -/
theorem State.keepsSettings.trans {s u v : State} (h : s.keepsSettings u) (i : Inner u v) : s.keepsSettings v := by
  obtain ⟨⟨h1, h2, h3, h4, h5, h6, h7⟩, ht⟩ := h
  refine ⟨⟨i.pending.trans h1, i.tmb.trans h2, i.hwi.trans h3, i.profiles.trans h4, i.analysis.trans h5, i.sgtx.trans h6,
    i.ltx.trans h7⟩, fun k => ?_⟩
  obtain ⟨k1, k2, k3, k4, -, k5, k6⟩ := (i.trunks k).kept
  obtain ⟨m1, m2, m3, m4, m5, m6⟩ := ht k
  exact ⟨k1.trans m1, k2.trans m2, k3.trans m3, k4.trans m4, k5.trans m5, k6.trans m6⟩

/-- A change of a trunk's record keeps its configuration and its accepted and candidate codes. -/
def Trunk.keepsSettings (r r' : Trunk) : Prop :=
  r'.role = r.role ∧ r'.profile = r.profile ∧ r'.group = r.group ∧ r'.glare = r.glare ∧
    r'.lcr.accepted = r.lcr.accepted ∧ r'.lcr.candidate = r.lcr.candidate

theorem State.mapTrunk_keepsSettings {s : State} {t : TrunkNo} {f : Trunk → Trunk}
    (h : (s.trunk t).keepsSettings (f (s.trunk t))) : s.keepsSettings (s.mapTrunk t f) := by
  refine ⟨⟨rfl, rfl, rfl, rfl, rfl, rfl, rfl⟩, fun k => ?_⟩
  rw [State.mapTrunk_trunk_at]
  split_ifs with hk
  · rw [hk]
    exact h
  · exact ⟨rfl, rfl, rfl, rfl, rfl, rfl⟩

theorem State.sparesOthers.trans {s u v : State} {t : TrunkNo} (h : s.sparesOthers u t) (k : u.sparesOthers v t) :
    s.sparesOthers v t := by
  intro n hn
  rw [k n hn, h n hn]

/-- A report leaves the trunk records. -/
theorem State.submit_spares (s : State) (x : Option TrunkNo) (b : ReportBody) (t : TrunkNo) :
    s.sparesOthers (s.submit x b) t := (s.submit_pool x b).spares t

/-! ### The freeing of a unit -/

theorem State.frees_inner (s : State) (h : Option HeldUnit) : Inner s (s.frees h) := by
  cases h with
  | none => exact .refl s
  | some h =>
    rw [State.frees, ← State.freeUnit_eq]
    exact s.freeUnit_inner true h.unit

theorem State.frees_pool (s : State) (h : Option HeldUnit) : PoolWork s (s.frees h) := by
  cases h with
  | none => exact .refl s
  | some h =>
    rw [State.frees, ← State.freeUnit_eq]
    exact s.freeUnit_pool true h.unit

theorem State.frees_reports (s : State) (h : Option HeldUnit) : (s.frees h).rqa = s.rqa ∧ (s.frees h).fault = s.fault := by
  cases h with
  | none => exact ⟨rfl, rfl⟩
  | some h =>
    rw [State.frees, ← State.freeUnit_eq]
    exact State.handOn_misc _ _

/-! ### The end of register work -/

/-- R40: what the end of register work, with a further change of the trunk's record, leaves alone. -/
structure State.worksOff (s u : State) (t : TrunkNo) : Prop where
  settings : s.keepsSettings u
  others : s.sparesOthers u t
  unit : u.clk = s.clk ∧ u.traffic = s.traffic ∧ u.sequence = s.sequence ∧ u.rqa = s.rqa ∧ u.fault = s.fault

theorem State.quitsWork_worksOff {s : State} {t : TrunkNo} {f : Trunk → Trunk} (hf : ∀ r : Trunk, r.keepsSettings (f r)) :
    s.worksOff (s.quitsWork t f) t := by
  have hx : s.quitsWork t f = ((s.leaveQueue t).mapTrunk t fun r => f { r with
    decadic := none, tone := none, unit := none, lcr := { r.lcr with mode := .line } }).frees (s.trunk t).unit := rfl
  generalize hy : (s.leaveQueue t).mapTrunk t (fun r => f { r with
    decadic := none, tone := none, unit := none, lcr := { r.lcr with mode := .line } }) = y at hx
  have settings : (s.leaveQueue t).keepsSettings y := by
    rw [← hy]
    exact State.mapTrunk_keepsSettings (hf _)
  have others : s.sparesOthers y t := by
    intro k hk
    rw [← hy, State.mapTrunk_trunk_ne _ _ hk]
    rfl
  have inner := y.frees_inner (s.trunk t).unit
  have pool := y.frees_pool (s.trunk t).unit
  have reports := y.frees_reports (s.trunk t).unit
  rw [← hx] at inner pool reports
  refine ⟨.trans ⟨settings.unit, settings.trunks⟩ inner, others.trans (pool.spares t), ?_⟩
  rw [inner.clk, pool.traffic, pool.sequence, reports.1, reports.2, ← hy]
  exact ⟨rfl, rfl, rfl, rfl, rfl⟩

/-! ### The clear-forward at an incoming trunk -/

/-- R61, from the state that the end of the register work leaves. -/
theorem State.clearForward_eq {s x : State} {t : TrunkNo} {p : Profile}
    (hx : s.endRegisterWork t (.reject .congestion) = x) (hp : p = x.profiles.get (x.trunk t).profile) :
    s.clearForward t = (x.mapTrunk t fun r => { r with
      lcr := { r.lcr with mode := .line }, state := .inGuard, sentCode := p.codes.bGuard
      timer := some { kind := .guard, left := p.guardTimer } }).submit (some t) (.clearForward (x.trunk t).callRef) := by
  unfold State.clearForward State.startTimer State.setFilter
  dsimp only
  rw [hx, State.enter_at (p := p) (by simpa using hp)]
  have names : ∀ f : Trunk → Trunk, (f (x.trunk t)).profile = (x.trunk t).profile → (x.mapTrunk t f).profileOf t = p :=
    State.mapTrunk_profile hp
  simp only [State.mapTrunk_mapTrunk, State.mapTrunk_trunk]
  rw [names _ rfl]
  rfl

/-- R61: a clear-forward at a trunk in no relay link that waits for no unit. -/
theorem State.clearForward_clears {s : State} {t : TrunkNo} (hl : (s.trunk t).link = none)
    (hq : ∀ e ∈ s.callQueue, e.trunk ≠ t) : s.clearedForward (s.clearForward t) t := by
  have whole : s.clearForward t = (s.quitsWork t fun r => { r with
      state := .inGuard, sentCode := (s.profiles.get r.profile).codes.bGuard
      timer := some { kind := .guard, left := (s.profiles.get r.profile).guardTimer } }).submit (some t)
        (.clearForward (s.trunk t).callRef) := by
    rw [State.clearForward_eq (State.endRegisterWork_quits _ hl (.inr hq)) (State.quitsWork_names rfl),
      State.quitsWork_mapTrunk, State.quitsWork_trunk]
    exact congrArg (State.submit · _ _) (State.quitsWork_congr _ _ rfl)
  obtain ⟨settings, others, clk, traffic, sequence, -, -⟩ := State.quitsWork_worksOff (s := s) (t := t)
    (f := fun r => { r with
      state := .inGuard, sentCode := (s.profiles.get r.profile).codes.bGuard
      timer := some { kind := .guard, left := (s.profiles.get r.profile).guardTimer } })
    fun _ => ⟨rfl, rfl, rfl, rfl, rfl, rfl⟩
  rw [whole]
  refine ⟨?_, ?_, ?_, ?_, State.submit_reported _ _ rfl, ⟨settings.trans (State.submit_inner _ _ _),
    others.trans (State.submit_spares _ _ _ _), ?_, ?_, ?_⟩, ?_⟩
  · rw [State.submit_trunk, State.quitsWork_trunk]
    exact ⟨rfl, rfl⟩
  · rw [State.submit_trunk, State.quitsWork_trunk]
  · rw [State.submit_trunk, State.quitsWork_trunk]
    exact ⟨rfl, rfl, rfl, rfl⟩
  · rw [State.submit_trunk, State.quitsWork_trunk]
    exact ⟨rfl, rfl, rfl, rfl⟩
  · rw [State.submit_clk, clk]
  · rw [State.submit_traffic, traffic]
  · rw [State.submit_sequence, sequence]
  · rw [State.quitsWork_absent _ hq]

/-- R5: outside HOLD no trunk timer is suspended. -/
theorem State.inHold_false {s : State} (h : s.hwi.alignment ≠ .hold) : s.inHold = false := by
  simpa [State.inHold] using h

/-- R83, R86: the clear-recognition timer's expiry is a clear-forward. -/
theorem exec_clearRecognitionExpiry {s : State} {t : TrunkNo} (h : s.hwi.alignment ≠ .hold)
    (due : (s.trunk t).clearRecognition = some 0) : exec (.clearRecognitionExpiry t) s = .next (s.clearForward t) := by
  change Host.Outcome.next (ite _ _ _) = _
  rw [if_pos]
  rw [State.inHold_false h, due]
  exact ⟨rfl, rfl⟩

/-- R37: F-CLEAR in a state of an incoming call is a clear-forward, but on a decadic trunk. -/
theorem State.decodeLine_fClear {s : State} {t : TrunkNo} {p : Profile} (hp : p = s.profiles.get (s.trunk t).profile)
    (state : (s.trunk t).state ∈ [TrunkState.inSelecting, .inWaitAnswer, .inAnswered, .inClearback, .inRejected])
    (method : p.method ≠ .decadic) (code : (s.trunk t).lcr.accepted = some p.codes.fClear)
    (distinct : p.codes.fSeize ≠ p.codes.fClear) : s.decodeLine t = s.clearForward t := by
  have decoded : s.decoded t = some (p.codes.fClear, some (.fClear, .clearForward)) := by
    refine State.decoded_listed (before := [(.fSeize, .nothing)]) (after := []) code ?_
      (by rw [← hp]; simpa [SendCodes.of] using distinct) (by rw [← hp]; rfl)
    simp only [List.mem_cons, List.not_mem_nil, or_false] at state
    rcases state with h | h | h | h | h <;> rw [h] <;> rfl
  have own : (s.trunk t).state ≠ .idle ∧ (s.trunk t).state ≠ .outClearing := by
    constructor <;> intro h <;> simp [h] at state
  rw [State.decodeLine_acts decoded own (.inr (hp ▸ method)), State.noteIdle_eq, if_neg (by simp)]
  rfl

/-- Settles O17. -/
theorem clearForwardPutsTheTrunkIntoGuard : Obligations.ClearForwardPutsTheTrunkIntoGuard := by
  unfold Obligations.ClearForwardPutsTheTrunkIntoGuard
  intro s t p hp hl hq
  refine ⟨fun state method code distinct => ?_, fun hold due => ⟨_, exec_clearRecognitionExpiry hold due, ?_⟩⟩
  · rw [State.decodeLine_fClear hp state method code distinct]
    exact State.clearForward_clears hl hq
  · exact State.clearForward_clears hl hq

end Sys2Proof.Machine
end

section
/-! PROOFS. The expiries of the ack timer and of the release timer. -/

namespace Sys2Proof.Machine

/-! ### What a report does to the fault capture record -/

section Reports

variable {s : State} {x : Option TrunkNo} {b : ReportBody} (sequenced : b.isCondition = false)
include sequenced

/-- R194: a sequenced report that finds room joins the queue. -/
theorem State.submit_room (room : s.rqa.entries.length < 64) :
    (s.submit x b).fault = s.fault ∧ (s.submit x b).rqa.entries.length = s.rqa.entries.length + 1 := by
  unfold State.submit
  rw [if_neg (by simp [sequenced]), if_pos (show _ < Config.reportRoom from room)]
  simp [State.withReports, ReportQueue.admitSequenced, Config.reportRoom, room, ReportQueue.join]

/-- R194: a sequenced report that finds the queue full is dropped and captured. -/
theorem State.submit_full (full : 64 ≤ s.rqa.entries.length) :
    (s.submit x b).fault = (s.capture .reportLoss x).fault ∧
      (s.submit x b).rqa.entries.length = s.rqa.entries.length := by
  have hn : ¬ s.rqa.entries.length < Config.reportRoom := Nat.not_lt.mpr full
  unfold State.submit
  rw [if_neg (by simp [sequenced]), if_neg hn]
  refine ⟨?_, by simp [State.withReports, ReportQueue.admitSequenced, hn]⟩
  simp only [State.capture, State.withReports]
  cases s.fault.held <;> rfl

/-- R198: a fault already held stays. -/
theorem State.submit_held {f : CapturedFault} (held : s.fault.held = some f) : (s.submit x b).fault.held = some f := by
  rcases Nat.lt_or_ge s.rqa.entries.length 64 with room | full
  · rw [(State.submit_room sequenced room).1, held]
  · rw [(State.submit_full sequenced full).1]
    simp only [State.capture, held]

/-- R198: an empty fault record takes the loss of a report that finds the queue full. -/
theorem State.submit_lost (empty : s.fault.held = none) (full : 64 ≤ s.rqa.entries.length) :
    (s.submit x b).fault.held = some { kind := .reportLoss, trunk := x, time := s.tmb.counter } := by
  rw [(State.submit_full sequenced full).1]
  simp only [State.capture, empty]

end Reports

/-- R198: a capture in an empty record. -/
theorem State.capture_empty {s : State} {k : FaultKind} {t : Option TrunkNo} (h : s.fault.held = none) :
    (s.capture k t).fault = { held := some { kind := k, trunk := t, time := s.tmb.counter }, further := false } := by
  simp only [State.capture, h]

/-- R198: a capture beside a fault already held. -/
theorem State.capture_beside {s : State} {k : FaultKind} {t : Option TrunkNo} {f : CapturedFault}
    (h : s.fault.held = some f) : (s.capture k t).fault = { held := some f, further := true } := by
  simp only [State.capture, h]

/-! ### A call that fails -/

/-- R41: the record of a trunk closes with its RELEASED report; the trunk's own record has been cleared before. -/
def State.releasesRecord (s : State) (t : TrunkNo) (record : Option CallRecord) (cause : Cause) : State :=
  match record with
  | none => s
  | some k => s.submit (some t) (.released { record := k, releaseTime := s.tmb.counter, cause := cause })

theorem State.releasesRecord_inner (s : State) (t : TrunkNo) (record : Option CallRecord) (cause : Cause) :
    Inner s (s.releasesRecord t record cause) := by
  cases record
  · exact .refl s
  · exact State.submit_inner _ _ _

theorem State.releasesRecord_pool (s : State) (t : TrunkNo) (record : Option CallRecord) (cause : Cause) :
    PoolWork s (s.releasesRecord t record cause) := by
  cases record
  · exact .refl s
  · exact State.submit_pool _ _ _

theorem State.releasesRecord_trunk (s : State) (t k : TrunkNo) (record : Option CallRecord) (cause : Cause) :
    (s.releasesRecord t record cause).trunk k = s.trunk k := by
  cases record
  · rfl
  · exact State.submit_trunk _ _ _ _

theorem State.releasesRecord_reported {s : State} {t : TrunkNo} {record : Option CallRecord} {cause : Cause}
    {k : CallRecord} (h : record = some k) : (s.releasesRecord t record cause).reported (some t)
      (.released { record := k, releaseTime := s.tmb.counter, cause := cause }) := by
  subst h
  exact State.submit_reported _ _ rfl

/-- R41, R42: what the failing of a trunk leaves of its record. -/
def Trunk.failedBy (profiles : Vector Profile 4) (failure : Cause) (r : Trunk) : Trunk := { r with
  received := { digits := [], category := none, endReceived := false }
  send := { digits := [], endFlag := false, pos := 1 }
  timer := none, callRef := none, standing := none, record := none, cause := some failure, state := .failed
  sentCode := sentCodeOf (profiles.get r.profile).codes r.role .failed }

/-- R41, R42: a trunk that fails, before its fault is captured. -/
def State.failing (s : State) (t : TrunkNo) (recordCause failure : Cause) : State :=
  (((s.quitsWork t (Trunk.failedBy s.profiles failure)).releasesRecord t (s.trunk t).record recordCause).submit (some t)
    (.trunkFailed failure (s.trunk t).callRef)).countFor t fun c => { c with failures := min 4294967295 (c.failures + 1) }

section Failing

variable {s : State} {t : TrunkNo} {recordCause failure : Cause}

theorem State.failedBy_worksOff : s.worksOff (s.quitsWork t (Trunk.failedBy s.profiles failure)) t :=
  State.quitsWork_worksOff fun _ => ⟨rfl, rfl, rfl, rfl, rfl, rfl⟩

theorem State.fails_eq : s.fails t recordCause failure = (s.failing t recordCause failure).capture .trunkFailed (some t) := by
  have counter : (s.failing t recordCause failure).tmb = s.tmb := by
    rw [State.failing, State.countFor_tmb, State.submit_tmb, (State.releasesRecord_inner _ _ _ _).tmb,
      (s.quitsWork_keeps t _).2]
  have whole : s.fails t recordCause failure = { s.failing t recordCause failure with
      fault := match (s.failing t recordCause failure).fault.held with
        | none => { held := some { kind := .trunkFailed, trunk := some t, time := s.tmb.counter }, further := false }
        | some _ => { (s.failing t recordCause failure).fault with further := true } } := by
    unfold State.fails State.failing State.releasesRecord
    rw [(s.quitsWork_keeps t _).2]
    rfl
  rw [whole, State.capture, ← congrArg TimeBase.counter counter]
  cases (s.failing t recordCause failure).fault.held <;> rfl

theorem State.failing_inner : Inner (s.quitsWork t (Trunk.failedBy s.profiles failure)) (s.failing t recordCause failure) :=
  ((State.releasesRecord_inner _ _ _ _).trans (State.submit_inner _ _ _)).trans
    (State.countFor_inner _ t _ Traffic.addFailure_inner)

theorem State.failing_trunk (k : TrunkNo) : (s.failing t recordCause failure).trunk k =
    (s.quitsWork t (Trunk.failedBy s.profiles failure)).trunk k := by
  rw [State.failing, State.countFor_trunk, State.submit_trunk, State.releasesRecord_trunk]

end Failing

/-! ### The end of register work before and after other changes of the record -/

/-- R40: a trunk's record as the end of its register work leaves it. -/
def Trunk.offWork (r : Trunk) : Trunk := { r with
  decadic := none, tone := none, unit := none, lcr := { r.lcr with mode := .line } }

theorem State.quitsWork_record (s : State) (t : TrunkNo) (f : Trunk → Trunk) :
    (s.quitsWork t f).trunk t = f (s.trunk t).offWork := State.quitsWork_trunk s t f

section Merging

variable {s : State} {t : TrunkNo} {f g h : Trunk → Trunk}

/-- A change of the trunk's record that leaves its unit is one with the end of its register work after it. -/
theorem State.mapTrunk_quitsWork (unit : (f (s.trunk t)).unit = (s.trunk t).unit)
    (agree : g (f (s.trunk t)).offWork = h (s.trunk t).offWork) : (s.mapTrunk t f).quitsWork t g = s.quitsWork t h := by
  have held : ((s.mapTrunk t f).trunk t).unit = (s.trunk t).unit := by rw [State.mapTrunk_trunk, unit]
  refine congrArg₂ State.frees ?_ held
  exact (State.mapTrunk_mapTrunk (s.leaveQueue t) t f _).trans (State.mapTrunk_congr _ _ agree)

/-- R94: after its register work a trunk waits for no unit. -/
theorem State.quitsWork_waits : ∀ e ∈ (s.quitsWork t f).callQueue, e.trunk ≠ t := by
  intro e he
  exact s.filtered_absent t e (State.frees_callQueue ((s.leaveQueue t).mapTrunk t _) _ e he)

/-- The end of register work that has ended is only a further change of the trunk's record. -/
theorem State.quitsWork_quitsWork (unit : (f (s.trunk t).offWork).unit = none)
    (agree : g (f (s.trunk t).offWork).offWork = h (s.trunk t).offWork) :
    (s.quitsWork t f).quitsWork t g = s.quitsWork t h := by
  have held : ((s.quitsWork t f).trunk t).unit = none := by rw [State.quitsWork_record, unit]
  rw [State.quitsWork_absent _ State.quitsWork_waits, State.endsWork, held, State.frees, State.quitsWork_mapTrunk]
  exact State.quitsWork_congr _ _ agree

end Merging

/-! ### The two expiries -/

section Expiries

variable {s : State} {t : TrunkNo}

/-- R41, R42: the failing of a trunk whose register work has ended, with any cause. -/
theorem State.fails_ended {cause : Option Cause} {recordCause failure : Cause} :
    (s.quitsWork t fun r => { r with cause := cause }).fails t recordCause failure = s.fails t recordCause failure := by
  have same : (s.quitsWork t fun r => { r with cause := cause }).failing t recordCause failure =
      s.failing t recordCause failure := by
    rw [State.failing, (s.quitsWork_keeps t _).1, State.quitsWork_quitsWork (h := Trunk.failedBy s.profiles failure) rfl rfl,
      State.quitsWork_record]
    rfl
  rw [State.fails_eq, same, State.fails_eq]

/-- R45 -/
theorem State.ackTimedOut_fails (hl : (s.trunk t).link = none) (hq : ∀ e ∈ s.callQueue, e.trunk ≠ t) :
    s.ackTimedOut t = s.fails t .ackTimeout .ackTimeout := by
  have ended : (s.mapTrunk t fun r => { r with cause := some .ackTimeout }).endRegisterWork t (.reject .congestion) =
      s.quitsWork t fun r => { r with cause := some .ackTimeout } := by
    have alone : ((s.mapTrunk t fun r => { r with cause := some .ackTimeout }).trunk t).link = none := by
      rw [State.mapTrunk_trunk, hl]
    exact (State.endRegisterWork_quits _ alone (.inr hq)).trans (State.mapTrunk_quitsWork rfl rfl)
  have ref : (s.trunk t).callRef = ((s.quitsWork t fun r => { r with cause := some .ackTimeout }).trunk t).callRef := by
    rw [State.quitsWork_trunk]
  have off : ((s.quitsWork t fun r => { r with cause := some .ackTimeout }).trunk t).unit = none := by
    rw [State.quitsWork_trunk]
  unfold State.ackTimedOut
  dsimp only
  rw [ended, ref, State.enterFailed_eq _ _ _ _ (by decide) (.inl off)]
  exact State.fails_ended

/-- R56 -/
theorem State.releaseTimedOut_fails (hq : ∀ e ∈ s.callQueue, e.trunk ≠ t) :
    s.releaseTimedOut t = s.fails t ((s.trunk t).cause.getD .releaseTimeout) .releaseTimeout :=
  s.enterFailed_eq t _ .releaseTimeout (by decide) (.inr hq)

/-- R194, R198: the fault record after the one or two reports of a trunk that fails. -/
theorem State.failing_fault {recordCause failure : Cause} :
    (∀ f, s.fault.held = some f → (s.failing t recordCause failure).fault.held = some f) ∧ (s.fault.held = none →
      (s.rqa.entries.length + (if (s.trunk t).record = none then 1 else 2) ≤ 64 →
        (s.failing t recordCause failure).fault.held = none) ∧
      (64 < s.rqa.entries.length + (if (s.trunk t).record = none then 1 else 2) →
        (s.failing t recordCause failure).fault.held =
          some { kind := .reportLoss, trunk := some t, time := s.tmb.counter })) := by
  obtain ⟨-, -, -, -, -, rqa, fault⟩ := State.failedBy_worksOff (s := s) (t := t) (failure := failure)
  have tmb := (s.quitsWork_keeps t (Trunk.failedBy s.profiles failure)).2
  unfold State.failing State.releasesRecord
  generalize s.quitsWork t (Trunk.failedBy s.profiles failure) = x at rqa fault tmb
  rw [← rqa, ← fault, ← tmb, State.countFor_fault]
  cases (s.trunk t).record with
  | none =>
    dsimp only
    rw [if_pos rfl]
    refine ⟨fun f held => State.submit_held rfl held, fun empty => ⟨fun room => ?_, fun full => ?_⟩⟩
    · exact (congrArg _ (State.submit_room rfl (Nat.lt_of_succ_le room)).1).trans empty
    · exact State.submit_lost rfl empty (by omega)
  | some k =>
    dsimp only
    rw [if_neg (by simp)]
    refine ⟨fun f held => State.submit_held rfl (State.submit_held rfl held), fun empty => ⟨fun room => ?_, fun full => ?_⟩⟩
    · obtain ⟨kept, len⟩ := State.submit_room (s := x) (x := some t)
        (b := .released { record := k, releaseTime := x.tmb.counter, cause := recordCause }) rfl (by omega)
      refine (congrArg _ (State.submit_room rfl ?_).1).trans ((congrArg _ kept).trans empty)
      exact len.trans_lt (by omega)
    · rcases Nat.lt_or_ge x.rqa.entries.length 64 with room | none_fits
      · obtain ⟨kept, len⟩ := State.submit_room (s := x) (x := some t)
          (b := .released { record := k, releaseTime := x.tmb.counter, cause := recordCause }) rfl room
        refine (State.submit_lost rfl ((congrArg _ kept).trans empty) (len ▸ by omega)).trans ?_
        rw [State.submit_tmb]
      · exact State.submit_held rfl (State.submit_lost rfl empty none_fits)

/-- R41, R42, R198: what the failing of a trunk leaves. -/
theorem State.fails_failed {recordCause failure : Cause} :
    s.failedCall (s.fails t recordCause failure) t recordCause failure := by
  obtain ⟨settings, others, clk, traffic, sequence, -, -⟩ := State.failedBy_worksOff (s := s) (t := t) (failure := failure)
  have tmb := (s.quitsWork_keeps t (Trunk.failedBy s.profiles failure)).2
  have counter : (s.failing t recordCause failure).tmb = s.tmb := State.failing_inner.tmb.trans tmb
  have inner := (State.failing_inner (s := s) (t := t) (recordCause := recordCause) (failure := failure)).trans
    (State.capture_inner _ .trunkFailed (some t))
  have record : ((s.failing t recordCause failure).capture .trunkFailed (some t)).trunk t =
      Trunk.failedBy s.profiles failure (s.trunk t).offWork := by
    rw [State.capture_trunk, State.failing_trunk, State.quitsWork_record]
  have pool := State.releasesRecord_pool (s.quitsWork t (Trunk.failedBy s.profiles failure)) t (s.trunk t).record recordCause
  have counts : s.countsFor (s.failing t recordCause failure) t _ := State.countFor_counts t
    (fun c => { c with failures := min 4294967295 (c.failures + 1) })
    (by rw [State.submit_trunk, State.releasesRecord_trunk, State.quitsWork_record]; rfl)
    (by rw [State.submit_traffic, pool.traffic, traffic])
  obtain ⟨heldStays, empty⟩ := State.failing_fault (s := s) (t := t) (recordCause := recordCause) (failure := failure)
  refine { state := ?_, call := ?_, engines := ?_, released := fun k hk => ?_, failed := ?_, count := ?_, fault := ?_
           frame := ?_, whole := rfl } <;> rw [State.fails_eq]
  · rw [record]
    exact ⟨rfl, rfl, rfl⟩
  · rw [record]
    exact ⟨rfl, rfl, rfl, rfl, rfl, rfl⟩
  · rw [record]
    exact ⟨rfl, rfl, rfl⟩
  · rw [← tmb]
    refine Inner.reported ?_ rfl (State.releasesRecord_reported hk)
    exact ((State.submit_inner _ _ _).trans (State.countFor_inner _ t _ Traffic.addFailure_inner)).trans
      (State.capture_inner _ _ _)
  · have counted := (State.countFor_inner (((s.quitsWork t (Trunk.failedBy s.profiles failure)).releasesRecord t
      (s.trunk t).record recordCause).submit (some t) (.trunkFailed failure (s.trunk t).callRef)) t _
      Traffic.addFailure_inner).trans (State.capture_inner _ .trunkFailed (some t))
    exact counted.reported rfl (State.submit_reported _ _ rfl)
  · rw [State.countsFor, State.capture_traffic]
    exact counts
  · refine ⟨fun f held => ?_, fun held => ⟨fun room => ?_, fun full => ?_⟩⟩
    · rw [State.capture_beside (heldStays f held)]
      exact ⟨rfl, rfl⟩
    · rw [State.capture_empty ((empty held).1 room), counter]
    · rw [State.capture_beside ((empty held).2 full)]
  · refine ⟨settings.trans inner, fun k hk => ?_, ?_, ?_⟩
    · rw [State.capture_trunk, State.failing_trunk]
      exact others k hk
    · rw [inner.clk, clk]
    · rw [State.capture_sequence, State.failing, State.countFor_sequence, State.submit_sequence, pool.sequence, sequence]

/-- R5, R34: a supervision timer that expires in the state that started it. -/
theorem State.supervisionDue_true {kind : SupervisionKind} (hold : s.hwi.alignment ≠ .hold)
    (timer : (s.trunk t).timer = some { kind := kind, left := 0 }) : s.supervisionDue t kind (s.trunk t).state = true := by
  simp [State.supervisionDue, State.inHold_false hold, timer]

end Expiries

theorem exec_ackTimerExpiry {s : State} {t : TrunkNo} (due : s.supervisionDue t .ack .outSeizing = true) :
    exec (.ackTimerExpiry t) s = .next (s.ackTimedOut t) := congrArg Host.Outcome.next (if_pos due)

theorem exec_answerWaitExpiry {s : State} {t : TrunkNo} (due : s.supervisionDue t .answerWait .outWaitAnswer = true) :
    exec (.answerWaitExpiry t) s = .next (s.forcedClear t .noAnswer) := congrArg Host.Outcome.next (if_pos due)

theorem exec_clearBackTimerExpiry {s : State} {t : TrunkNo} (due : s.supervisionDue t .clearBack .outClearback = true) :
    exec (.clearBackTimerExpiry t) s = .next (s.forcedClear t .clearbackTimeout) :=
  congrArg Host.Outcome.next (if_pos due)

theorem exec_releaseTimerExpiry {s : State} {t : TrunkNo} (due : s.supervisionDue t .release .outClearing = true) :
    exec (.releaseTimerExpiry t) s = .next (s.releaseTimedOut t) := congrArg Host.Outcome.next (if_pos due)

theorem exec_guardTimerExpiry {s : State} {t : TrunkNo} (due : s.supervisionDue t .guard .inGuard = true) :
    exec (.guardTimerExpiry t) s = .next (s.finishCall t) := congrArg Host.Outcome.next (if_pos due)

/-- Settles O18. -/
theorem ackAndReleaseTimerExpiriesFailTheTrunk : Obligations.AckAndReleaseTimerExpiriesFailTheTrunk := by
  unfold Obligations.AckAndReleaseTimerExpiriesFailTheTrunk
  constructor
  · intro s t hold state timer hl hq
    refine ⟨_, exec_ackTimerExpiry (state ▸ State.supervisionDue_true hold timer), ?_⟩
    rw [State.ackTimedOut_fails hl hq]
    exact State.fails_failed
  · intro s t hold state timer hq
    refine ⟨_, exec_releaseTimerExpiry (state ▸ State.supervisionDue_true hold timer), ?_⟩
    rw [State.releaseTimedOut_fails hq]
    exact State.fails_failed

end Sys2Proof.Machine
end

section
/-! PROOFS. Clearing forward, and the ends of calls that free the trunk. -/

namespace Sys2Proof.Machine

/-! ### Clearing forward -/

section Clears

variable {s : State} {t : TrunkNo}

theorem State.clearsOut_worksOff (cause : Option Cause) : s.worksOff (s.clearsOut t cause) t :=
  State.quitsWork_worksOff (f := fun r => { r with
      cause := cause, state := .outClearing, sentCode := (s.profiles.get r.profile).codes.fClear
      timer := some { kind := .release, left := (s.profiles.get r.profile).releaseTimer } })
    fun _ => ⟨rfl, rfl, rfl, rfl, rfl, rfl⟩

/-- R50, R54: what clearing forward leaves. -/
theorem State.clearsOut_cleared (cause : Option Cause) : s.clearedOut (s.clearsOut t cause) t cause := by
  obtain ⟨settings, others, -, traffic, sequence, rqa, fault⟩ := State.clearsOut_worksOff (s := s) (t := t) cause
  refine ⟨?_, ?_, ?_, ?_, settings, others, traffic, sequence, rqa, fault⟩ <;>
    rw [State.clearsOut, State.quitsWork_trunk]
  · exact ⟨rfl, rfl, rfl⟩
  · exact ⟨rfl, rfl, rfl, rfl⟩
  · exact ⟨rfl, rfl⟩

/-- R54: RELEASE of a trunk in no relay link. -/
theorem State.releaseCall_eq (hl : (s.trunk t).link = none)
    (hq : (s.trunk t).unit = none ∨ ∀ e ∈ s.callQueue, e.trunk ≠ t) :
    s.releaseCall t = (s.clearsOut t (s.trunk t).cause).clearingDecodes t := by
  rw [State.releaseCall, State.endRegisterWork_unlinked _ _ _ hl, State.clearOut_eq _ _ hq]

end Clears

/-- Settles O23. -/
theorem releaseAndForcedClearsSendForwardClear : Obligations.ReleaseAndForcedClearsSendForwardClear := by
  unfold Obligations.ReleaseAndForcedClearsSendForwardClear
  intro s t y hl hq hy
  refine ⟨fun cause => ?_, fun equipped state => ?_, fun hold state timer => ?_, fun hold state timer => ?_⟩ <;> rw [hy]
  · exact ⟨State.clearsOut_cleared cause, (State.clearsOut_worksOff cause).unit.1⟩
  · have releasable : (s.trunk t).state.releasable = true := by
      simp only [List.mem_cons, List.not_mem_nil, or_false] at state
      rcases state with h | h | h | h | h | h <;> rw [h] <;> rfl
    rw [exec_release, State.takeRelease_ok equipped releasable, State.releaseCall_eq hl hq]
  · rw [exec_answerWaitExpiry (state ▸ State.supervisionDue_true hold timer), State.forcedClear_eq _ _ _ hq]
  · rw [exec_clearBackTimerExpiry (state ▸ State.supervisionDue_true hold timer), State.forcedClear_eq _ _ _ hq]

/-! ### The end of a call -/

/-- R41, R38: what the end of a call leaves of a trunk's record. -/
def Trunk.freedBy (profiles : Vector Profile 4) (r : Trunk) : Trunk := { r with
  received := { digits := [], category := none, endReceived := false }
  send := { digits := [], endFlag := false, pos := 1 }
  timer := none, callRef := none, standing := none, record := none, cause := none
  state := if r.localBlock then .localBlocked else .idle
  sentCode := sentCodeOf (profiles.get r.profile).codes r.role (if r.localBlock then .localBlocked else .idle) }

section Ends

variable {s : State} {t : TrunkNo} {cause : Cause}

theorem State.callEnds_eq :
    s.callEnds t cause = (s.quitsWork t (Trunk.freedBy s.profiles)).releasesRecord t (s.trunk t).record cause := by
  unfold State.callEnds State.releasesRecord
  rw [(s.quitsWork_keeps t _).2]
  rfl

theorem State.callEnds_trunk : (s.callEnds t cause).trunk t = Trunk.freedBy s.profiles (s.trunk t).offWork := by
  rw [State.callEnds_eq, State.releasesRecord_trunk, State.quitsWork_record]

theorem State.callEnds_profiles : (s.callEnds t cause).profiles = s.profiles := by
  rw [State.callEnds_eq, (State.releasesRecord_inner _ _ _ _).profiles, (s.quitsWork_keeps t _).1]

theorem State.callEnds_names {p : Profile} (hp : p = s.profiles.get (s.trunk t).profile) :
    p = (s.callEnds t cause).profiles.get ((s.callEnds t cause).trunk t).profile := by
  rw [State.callEnds_profiles, State.callEnds_trunk]
  exact hp

theorem State.callEnds_worksOff : s.worksOff (s.quitsWork t (Trunk.freedBy s.profiles)) t :=
  State.quitsWork_worksOff fun _ => ⟨rfl, rfl, rfl, rfl, rfl, rfl⟩

/-- R38, R41: what the end of a call leaves. -/
theorem State.callEnds_frees : s.freedCall (s.callEnds t cause) t cause := by
  obtain ⟨settings, others, -, traffic, sequence, -, -⟩ := State.callEnds_worksOff (s := s) (t := t)
  have inner := State.releasesRecord_inner (s.quitsWork t (Trunk.freedBy s.profiles)) t (s.trunk t).record cause
  have pool := State.releasesRecord_pool (s.quitsWork t (Trunk.freedBy s.profiles)) t (s.trunk t).record cause
  refine ⟨?_, ?_, ?_, fun k hk => ?_, ?_⟩
  · rw [State.callEnds_trunk]
    exact ⟨rfl, rfl, rfl⟩
  · rw [State.callEnds_trunk]
    exact ⟨rfl, rfl, rfl, rfl, rfl, rfl⟩
  · rw [State.callEnds_trunk]
    exact ⟨rfl, rfl, rfl, rfl⟩
  · rw [State.callEnds_eq, ← (s.quitsWork_keeps t (Trunk.freedBy s.profiles)).2]
    exact State.releasesRecord_reported hk
  · rw [State.callEnds_eq]
    exact ⟨settings.trans inner, others.trans (pool.spares t), pool.traffic.trans traffic, pool.sequence.trans sequence⟩

theorem State.callEnds_clk : (s.callEnds t cause).clk = s.clk := by
  rw [State.callEnds_eq, (State.releasesRecord_inner _ _ _ _).clk]
  exact State.callEnds_worksOff.unit.1

/-- R38: a trunk in LOCAL-BLOCKED, or with no accepted code, has nothing to decode. -/
theorem State.callEnds_quiet (h : (s.trunk t).localBlock = true ∨ (s.trunk t).lcr.accepted = none) :
    (s.callEnds t cause).idleDecodes t = s.callEnds t cause := by
  rcases h with blocked | unknown
  · refine State.idleDecodes_of_not_idle _ _ ?_
    simp [State.callEnds_trunk, Trunk.freedBy, Trunk.offWork, blocked]
  · exact State.idleDecodes_unknown (by rw [State.callEnds_trunk]; exact unknown)

/-- R71: the end of register work before the end of a call is part of it. -/
theorem State.callEnds_ended : (s.quitsWork t id).callEnds t cause = s.callEnds t cause := by
  rw [State.callEnds_eq, (s.quitsWork_keeps t id).1, State.quitsWork_quitsWork (h := Trunk.freedBy s.profiles) rfl rfl,
    State.quitsWork_record, State.callEnds_eq]
  rfl

/-- R71: RESET-TRUNK of a trunk in a call and in no relay link. -/
theorem State.resetTrunk_inCall (inCall : (s.trunk t).state.inCall = true) (hl : (s.trunk t).link = none)
    (hq : (s.trunk t).unit = none ∨ ∀ e ∈ s.callQueue, e.trunk ≠ t) :
    s.resetTrunk t = (s.callEnds t .reset).idleDecodes t := by
  have off : ((s.quitsWork t id).trunk t).unit = none := by
    rw [State.quitsWork_record]
    rfl
  unfold State.resetTrunk
  dsimp only
  rw [if_pos inCall, State.endRegisterWork_quits _ hl hq, State.endCall_eq _ _ _ (.inl off), State.callEnds_ended]

/-- R71: RESET-TRUNK of a trunk in no call. -/
theorem State.resetTrunk_free {p : Profile} (hp : p = s.profiles.get (s.trunk t).profile)
    (free : (s.trunk t).state.inCall = false) : s.resetTrunk t = (s.mapTrunk t fun r => { r with
      cause := none, state := if r.localBlock then .localBlocked else .idle
      sentCode := sentCodeOf p.codes r.role (if r.localBlock then .localBlocked else .idle) }).idleDecodes t := by
  unfold State.resetTrunk
  dsimp only
  rw [if_neg (by simp [free]), State.enterIdle_at (p := p) (by simpa using hp), State.mapTrunk_mapTrunk]

end Ends

/-! ### The decoding of the code that stands when a trunk becomes free -/

section Standing

variable {s : State} {t : TrunkNo} {p : Profile} {code : LineCode} (hp : p = s.profiles.get (s.trunk t).profile)
  (accepted : (s.trunk t).lcr.accepted = some code)
include hp accepted

/-- R37: an incoming trunk in a free state lets F-CLEAR and F-IDLE stand. -/
theorem State.idleDecodes_cleared (role : (s.trunk t).role = .incoming) (h : code = p.codes.fClear ∨ code = p.codes.fIdle)
    (seize : code ≠ p.codes.fSeize) : s.idleDecodes t = s := by
  by_cases idle : (s.trunk t).state = .idle
  · simp only [State.idleDecodes, accepted, idle, role, ← hp, ne_eq, not_true_eq_false, if_false, if_true, if_neg seize,
      if_pos h.symm]
  · exact State.idleDecodes_of_not_idle _ _ idle

/-- R57: a standing F-SEIZE is taken as a new call. -/
theorem State.idleDecodes_fSeize (idle : (s.trunk t).state = .idle)
    (role : (s.trunk t).role = .incoming ∨ (s.trunk t).role = .bothWay) (seize : code = p.codes.fSeize) :
    s.idleDecodes t = s.incomingSeizure t := by
  rcases role with role | role <;> simp [State.idleDecodes, accepted, idle, role, ← hp, seize]

/-- R37, R65: a standing B-BLOCK takes the trunk on to REMOTE-BLOCKED. -/
theorem State.idleDecodes_bBlock (idle : (s.trunk t).state = .idle)
    (role : (s.trunk t).role = .outgoing ∨ ((s.trunk t).role = .bothWay ∧ code ≠ p.codes.fSeize))
    (blocked : code = p.codes.bBlock) : s.idleDecodes t =
      (s.blocks t).mapTrunk t fun r => { r with state := .remoteBlocked, sentCode := p.codes.fIdle } := by
  rcases role with role | ⟨role, seize⟩
  · simp [State.idleDecodes, accepted, idle, role, ← hp, blocked]
  · simp only [State.idleDecodes, accepted, idle, role, ← hp, ne_eq, not_true_eq_false, if_false, if_true, if_neg seize,
      if_pos blocked, reduceCtorEq]

/-- R37, R65: B-IDLE changes nothing on an outgoing trunk whose remote-block flag is clear. -/
theorem State.idleDecodes_idleSignal_outgoing (role : (s.trunk t).role = .outgoing) (idle : code = p.codes.bIdle)
    (blocked : code ≠ p.codes.bBlock) (clear : (s.trunk t).remoteBlock = false) : s.idleDecodes t = s := by
  subst idle
  by_cases state : (s.trunk t).state = .idle
  · rw [State.idleDecodes_bIdle hp role state accepted blocked, State.unblocks_clear clear]
  · exact State.idleDecodes_of_not_idle _ _ state

/-- R37, R65: the idle signal changes nothing on a free trunk whose remote-block flag is clear or that has none. -/
theorem State.idleDecodes_idleSignal (equipped : (s.trunk t).role ≠ .unequipped) (valid : p.codes.fIdle ≠ p.codes.fSeize)
    (idle : code = if (s.trunk t).role = .outgoing then p.codes.bIdle else p.codes.fIdle)
    (blocked : (s.trunk t).role ≠ .incoming → code ≠ p.codes.bBlock)
    (clear : (s.trunk t).role ≠ .incoming → (s.trunk t).remoteBlock = false) : s.idleDecodes t = s := by
  by_cases state : (s.trunk t).state = .idle
  · cases role : (s.trunk t).role with
    | unequipped => exact absurd role equipped
    | incoming =>
      exact State.idleDecodes_cleared hp accepted role (.inr (by simpa [role] using idle))
        (by simpa [role, idle] using valid)
    | outgoing =>
      exact State.idleDecodes_idleSignal_outgoing hp accepted role (by simpa [role] using idle) (blocked (by simp [role]))
        (clear (by simp [role]))
    | bothWay =>
      have free := State.unblocks_clear (clear (by simp [role]))
      have code_ne := blocked (by simp [role])
      simp only [role, reduceCtorEq, if_false] at idle
      subst idle
      simp only [State.idleDecodes, accepted, state, role, ← hp, ne_eq, not_true_eq_false, reduceCtorEq, if_false, if_true,
        if_neg valid, if_neg code_ne, free]
  · exact State.idleDecodes_of_not_idle _ _ state

end Standing

/-! ### Recovery from FAILED -/

/-- R37, R70: the idle signal decoded in FAILED. -/
theorem State.decoded_failed {s : State} {t : TrunkNo} {p : Profile} {code : LineCode}
    (hp : p = s.profiles.get (s.trunk t).profile) (accepted : (s.trunk t).lcr.accepted = some code)
    (state : (s.trunk t).state = .failed) (equipped : (s.trunk t).role ≠ .unequipped)
    (idle : code = if (s.trunk t).role = .outgoing then p.codes.bIdle else p.codes.fIdle)
    (blocked : (s.trunk t).role ≠ .incoming → code ≠ p.codes.bBlock) : s.decoded t =
      some (code, some (if (s.trunk t).role = .outgoing then .bIdle else .fIdle, .idleSignal)) := by
  cases role : (s.trunk t).role with
  | unequipped => exact absurd role equipped
  | incoming =>
    exact State.decoded_listed (before := []) accepted (by rw [role, state]; rfl) (by simp)
      (by rw [← hp, idle, role]; rfl)
  | outgoing =>
    exact State.decoded_listed (before := [(.bBlock, .remoteFlag)]) accepted (by rw [role, state]; rfl)
      (by rw [← hp]; simpa [SendCodes.of] using (blocked (by simp [role])).symm) (by rw [← hp, idle, role]; rfl)
  | bothWay =>
    exact State.decoded_listed (before := [(.bBlock, .remoteFlag)]) accepted (by rw [role, state]; rfl)
      (by rw [← hp]; simpa [SendCodes.of] using (blocked (by simp [role])).symm) (by rw [← hp, idle, role]; rfl)

section Ways

variable {s : State} {t : TrunkNo} {p : Profile} (hp : p = s.profiles.get (s.trunk t).profile)
include hp

/-- R37, R57, R62: the code that stands when a call has ended. -/
theorem State.callEnds_standing {cause : Cause} :
    ((s.trunk t).localBlock = true ∨ (s.trunk t).lcr.accepted = none →
      (s.callEnds t cause).idleDecodes t = s.callEnds t cause) ∧
    (∀ code, (s.trunk t).lcr.accepted = some code → code = p.codes.fClear ∨ code = p.codes.fIdle →
      code ≠ p.codes.fSeize → (s.trunk t).role = .incoming → (s.callEnds t cause).idleDecodes t = s.callEnds t cause) ∧
    ((s.trunk t).lcr.accepted = some p.codes.fSeize → (s.trunk t).localBlock = false →
      (s.trunk t).role = .incoming ∨ (s.trunk t).role = .bothWay →
      (s.callEnds t cause).idleDecodes t = (s.callEnds t cause).incomingSeizure t) := by
  have names := State.callEnds_names (cause := cause) hp
  refine ⟨State.callEnds_quiet, fun code accepted standing seize role => ?_, fun accepted free role => ?_⟩
  · exact State.idleDecodes_cleared names (by rw [State.callEnds_trunk]; exact accepted)
      (by rw [State.callEnds_trunk]; exact role) standing seize
  · refine State.idleDecodes_fSeize names (by rw [State.callEnds_trunk]; exact accepted) ?_
      (by rw [State.callEnds_trunk]; exact role) rfl
    rw [State.callEnds_trunk]
    exact if_neg (by simp [Trunk.offWork, free])

/-- R55: B-IDLE completes the release of an outgoing trunk whose remote-block flag is clear. -/
theorem State.clearingDecodes_bIdle (accepted : (s.trunk t).lcr.accepted = some p.codes.bIdle)
    (guard : p.codes.bIdle ≠ p.codes.bGuard) (blocked : p.codes.bIdle ≠ p.codes.bBlock)
    (role : (s.trunk t).role = .outgoing) (clear : (s.trunk t).remoteBlock = false) :
    s.clearingDecodes t = s.callEnds t ((s.trunk t).cause.getD .normal) := by
  have names := State.callEnds_names (cause := (s.trunk t).cause.getD .normal) hp
  simp only [State.clearingDecodes, accepted, ← hp, if_neg guard, if_true, State.unblocks_clear clear]
  exact State.idleDecodes_idleSignal_outgoing names
    (by rw [State.callEnds_trunk]; exact accepted) (by rw [State.callEnds_trunk]; exact role) rfl blocked
    (by rw [State.callEnds_trunk]; exact clear)

/-- R55, R65: B-BLOCK completes the release, and takes a trunk that enters IDLE on to REMOTE-BLOCKED. -/
theorem State.clearingDecodes_bBlock (accepted : (s.trunk t).lcr.accepted = some p.codes.bBlock)
    (guard : p.codes.bBlock ≠ p.codes.bGuard) (idle : p.codes.bBlock ≠ p.codes.bIdle)
    (role : (s.trunk t).role = .outgoing ∨ ((s.trunk t).role = .bothWay ∧ p.codes.bBlock ≠ p.codes.fSeize)) {y : State}
    (hy : y = s.callEnds t ((s.trunk t).cause.getD .normal)) :
    s.clearingDecodes t = if (s.trunk t).localBlock then y
      else (y.blocks t).mapTrunk t fun r => { r with state := .remoteBlocked, sentCode := p.codes.fIdle } := by
  have names := State.callEnds_names (cause := (s.trunk t).cause.getD .normal) hp
  simp only [State.clearingDecodes, accepted, ← hp, if_neg guard, if_neg idle, if_true]
  subst hy
  by_cases free : (s.trunk t).localBlock = true
  · rw [if_pos free, State.callEnds_quiet (.inl free)]
  · rw [if_neg free]
    refine State.idleDecodes_bBlock names (by rw [State.callEnds_trunk]; exact accepted) ?_
      (by rw [State.callEnds_trunk]; exact role) rfl
    rw [State.callEnds_trunk]
    exact if_neg free

/-- R65, R70: the idle signal in FAILED frees the trunk only where it failed by the hold limit. -/
theorem State.decodeLine_recovers {code : LineCode} (state : (s.trunk t).state = .failed)
    (equipped : (s.trunk t).role ≠ .unequipped) (valid : p.codes.valid = true)
    (accepted : (s.trunk t).lcr.accepted = some code)
    (idle : code = if (s.trunk t).role = .outgoing then p.codes.bIdle else p.codes.fIdle)
    (blocked : (s.trunk t).role ≠ .incoming → code ≠ p.codes.bBlock) {x : State}
    (hx : x = if (s.trunk t).remoteBlock = true ∧ (s.trunk t).role ≠ .incoming then
        (s.mapTrunk t fun r => { r with remoteBlock := false }).submit (some t) .remoteUnblock
      else s) :
    s.decodeLine t = if (s.trunk t).cause = some .holdLimit then x.mapTrunk t fun r => { r with
        cause := none, state := if r.localBlock then .localBlocked else .idle
        sentCode := sentCodeOf p.codes r.role (if r.localBlock then .localBlocked else .idle) }
      else x := by
  have distinct : p.codes.fIdle ≠ p.codes.fSeize := by
    simp only [SendCodes.valid, Bool.and_eq_true, bne_iff_ne] at valid
    tauto
  have noted : s.noteIdle t (if (s.trunk t).role = .outgoing then .bIdle else .fIdle) = x := by
    rw [hx, State.noteIdle_eq]
    cases role : (s.trunk t).role <;> simp_all [State.unblocks]
  have clear : (s.trunk t).role ≠ .incoming → (x.trunk t).remoteBlock = false := by
    intro role
    rw [hx]
    by_cases set : (s.trunk t).remoteBlock = true
    · rw [if_pos ⟨set, role⟩, State.submit_trunk, State.mapTrunk_trunk]
    · rw [if_neg (by simp [set])]
      simpa using set
  have same : x.trunk t = { s.trunk t with remoteBlock := (x.trunk t).remoteBlock } := by
    rw [← noted]
    exact s.noteIdle_trunk t _
  have names : p = x.profiles.get (x.trunk t).profile := by
    rw [← noted]
    exact State.noteIdle_names hp _
  rw [State.decodeLine_idleSignal hp (State.decoded_failed hp accepted state equipped idle blocked), noted]
  simp only [state, true_and]
  split_ifs with limit
  · refine State.idleDecodes_idleSignal (p := p) (code := code) ?_ ?_ ?_ distinct ?_ ?_ ?_ <;>
      rw [State.mapTrunk_trunk]
    · exact names
    · rw [same]
      exact accepted
    · rw [same]
      exact equipped
    · rw [same]
      exact idle
    · rw [same]
      exact blocked
    · rw [same]
      exact clear
  · rfl

end Ways

/-- Settles O24. -/
theorem guardEndReleaseEndAndResetFreeTheTrunk : Obligations.GuardEndReleaseEndAndResetFreeTheTrunk := by
  unfold Obligations.GuardEndReleaseEndAndResetFreeTheTrunk
  intro s t p hp hq
  refine ⟨fun cause => ⟨State.callEnds_frees, State.callEnds_clk⟩, fun hold state timer => ?_,
    fun code state accepted => ?_, fun equipped inCall hl => ?_, fun equipped free y hy => ?_,
    fun code state equipped valid accepted idle blocked x hx => ?_⟩
  · obtain ⟨quiet, cleared, seized⟩ := State.callEnds_standing (cause := (s.trunk t).cause.getD .normal) hp
    refine ⟨_, _, exec_guardTimerExpiry (state ▸ State.supervisionDue_true hold timer), rfl, s.finishCall_eq t hq, ?_⟩
    rw [s.finishCall_eq t hq]
    refine ⟨quiet, cleared, fun accepted free role => ?_⟩
    have seizure := seized accepted free role
    rw [seizure]
    obtain ⟨⟨sequence, ref, -⟩, sent, state', report, -, -⟩ := State.incomingSeizure_seized
      (State.callEnds_names (cause := (s.trunk t).cause.getD .normal) hp)
    obtain ⟨-, -, -, -, -, -, -, same⟩ := State.callEnds_frees (s := s) (t := t) (cause := (s.trunk t).cause.getD .normal)
    rw [same] at sequence ref report
    exact ⟨rfl, sequence, ref, sent, report, state'⟩
  · have decodes : s.decodeLine t = s.clearingDecodes t :=
      (State.decodeLine_clearing state).trans (s.decodeClearing_eq t state hq)
    rw [decodes]
    refine ⟨rfl, ?_, ?_⟩
    · rintro rfl guard block role clear
      exact State.clearingDecodes_bIdle hp accepted guard block role clear
    · rintro rfl guard idle y hy role
      exact State.clearingDecodes_bBlock hp accepted guard idle role hy
  · rw [exec_resetTrunk, State.takeResetTrunk_ok equipped, State.resetTrunk_inCall inCall hl hq]
    exact ⟨rfl, fun quiet => by rw [State.callEnds_quiet quiet]⟩
  · rw [exec_resetTrunk, State.takeResetTrunk_ok equipped, State.resetTrunk_free hp free, ← hy]
    refine ⟨rfl, fun quiet => ?_⟩
    have stays : y.idleDecodes t = y := by
      rcases quiet with blocked | unknown
      · exact State.idleDecodes_of_not_idle _ _ (by simp [hy, blocked])
      · exact State.idleDecodes_unknown (by simpa [hy] using unknown)
    rw [stays]
  · rw [State.decodeLine_recovers hp state equipped valid accepted idle blocked hx]
    exact ⟨fun limit => if_pos limit, fun other => if_neg other⟩

end Sys2Proof.Machine
end

section
/-! PROOFS. The timers of the register phases that end an outgoing number, a decadic digit wait or a wait for a unit. -/

namespace Sys2Proof.Machine

/-! ### Timers that have expired -/

section Due

variable {s : State} {t : TrunkNo}

theorem State.senderDue_some {c : DecadicSender} (hold : s.hwi.alignment ≠ .hold)
    (engine : (s.trunk t).decadic = some (.sending c)) (timer : c.timer = some 0) :
    s.senderDue t c.phase = some c := by
  simp [State.senderDue, engine, timer, State.inHold_false hold, timerDue]

theorem State.toneSenderDue_some {c : ToneSender} {kind : ToneTimerKind} (hold : s.hwi.alignment ≠ .hold)
    (engine : (s.trunk t).tone = some (.sender c)) (timer : c.timer = some { kind := kind, left := 0 }) :
    s.toneSenderDue t kind = some c := by
  simp [State.toneSenderDue, engine, timer, State.inHold_false hold]

theorem State.receiverRunning_some {c : DecadicReceiver} (hold : s.hwi.alignment ≠ .hold)
    (engine : (s.trunk t).decadic = some (.receiving c)) : s.receiverRunning t = some c := by
  simp [State.receiverRunning, Trunk.receiver, engine, State.inHold_false hold]

theorem exec_pauseTimerExpiry {c : DecadicSender} (due : s.senderDue t .pause = some c) :
    exec (.pauseTimerExpiry t) s = .next (s.pauseEnded t c) := by
  change execPauseTimerExpiry t s = _
  rw [execPauseTimerExpiry, due]

theorem exec_decadicSenderDigitWait {c : DecadicSender} (due : s.senderDue t .waiting = some c) :
    exec (.decadicSenderDigitWait t) s = .next (s.outOutcome t (.reject .digitTimeout)) := by
  change execDecadicSenderDigitWait t s = _
  rw [execDecadicSenderDigitWait, due]

theorem exec_senderDigitWaitExpiry {c : ToneSender} (due : s.toneSenderDue t .senderWait = some c) :
    exec (.senderDigitWaitExpiry t) s = .next (s.endSender t (.reject .digitTimeout)) := by
  change execSenderDigitWaitExpiry t s = _
  rw [execSenderDigitWaitExpiry, due]

theorem exec_senderInterlockExpiry {c : ToneSender} (due : s.toneSenderDue t .interlock = some c) :
    exec (.senderInterlockExpiry t) s = .next (s.endSender t (.reject .interlockTimeout)) := by
  change execSenderInterlockExpiry t s = _
  rw [execSenderInterlockExpiry, due]

theorem exec_decadicDigitWaitExpiry {c : DecadicReceiver} {kind : DigitWaitKind} (running : s.receiverRunning t = some c)
    (between : c.phase = .between) (wait : c.wait = some { kind := kind, left := 0 }) :
    exec (.decadicDigitWaitExpiry t) s = .next (s.digitWaitEnded t kind) := by
  change execDecadicDigitWaitExpiry t s = _
  rw [execDecadicDigitWaitExpiry, running, Option.bind_some, if_pos between, wait]
  exact congrArg Host.Outcome.next (if_pos rfl)

end Due

/-! ### The outgoing register phase -/

section Outgoing

variable {s : State} {t : TrunkNo} (state : (s.trunk t).state = .outSelecting) (hl : (s.trunk t).link = none)
include state hl

/-- R126, R129: a tone sender that rejects its number gives up its unit. -/
theorem State.endSender_rejects (hq : ∀ e ∈ s.callQueue, e.trunk ≠ t) (cause : Cause) :
    s.rejectedOut (s.endSender t (.reject cause)) t cause ∧ ((s.endSender t (.reject cause)).trunk t).tone = none ∧
      ((s.endSender t (.reject cause)).trunk t).unit = none := by
  have pool := s.endTone_pool true t
  obtain ⟨unit, tone⟩ := s.endTone_self true t hq
  obtain ⟨rejected, keepsTone, keepsUnit, -, -⟩ := s.outOutcome_rejects (s.endTone true t) t cause state hl
    (s.endTone_inner true t) pool.trunks pool.traffic pool.sequence
  exact ⟨rejected, keepsTone.trans tone, keepsUnit.trans unit⟩

/-- R51, R75: the end of a number that has been sent. -/
theorem State.pauseEnded_completes {c : DecadicSender} (sent : (s.trunk t).send.digits[(s.trunk t).send.pos - 1]? = none)
    (last : (s.trunk t).send.endFlag = true) : s.pauseEnded t c = s.endsOut t .complete := by
  unfold State.pauseEnded SendStore.current
  rw [sent]
  dsimp only
  rw [if_pos last, State.outOutcome_eq _ _ _ state hl]

end Outgoing

/-- Settles O26. -/
theorem outgoingRegisterPhaseEnds : Obligations.OutgoingRegisterPhaseEnds := by
  unfold Obligations.OutgoingRegisterPhaseEnds
  intro s t p hp hold state hl hq
  refine ⟨fun c engine phase timer sent last => ?_, fun c engine phase timer => ?_, fun c engine timer => ?_,
    fun c engine timer => ?_⟩
  · subst hp
    rw [exec_pauseTimerExpiry (phase ▸ State.senderDue_some hold engine timer),
      State.pauseEnded_completes state hl sent last]
    rfl
  · obtain ⟨rejected, -, -, units, -⟩ := s.outOutcome_rejects s t .digitTimeout state hl (.refl s) (fun _ => rfl) rfl rfl
    exact ⟨_, exec_decadicSenderDigitWait (phase ▸ State.senderDue_some hold engine timer), rejected, units⟩
  · exact ⟨_, exec_senderDigitWaitExpiry (State.toneSenderDue_some hold engine timer),
      State.endSender_rejects state hl hq _⟩
  · exact ⟨_, exec_senderInterlockExpiry (State.toneSenderDue_some hold engine timer),
      State.endSender_rejects state hl hq _⟩

/-! ### The decadic digit waits -/

/-- R58: what an outcome of the incoming register phase leaves. -/
def State.outcomeIn (s u : State) (t : TrunkNo) : RegOutcome → Prop
  | .complete => s.completedIn u t
  | .reject cause => s.rejectedIn u t cause

section Incoming

variable {s : State} {t : TrunkNo}

/-- R58, R85: an outcome of a trunk in IN-SELECTING, from a state that differs in its engines and units. -/
theorem State.inOutcome_outcomeIn {a : State} (state : (s.trunk t).state = .inSelecting) (inner : Inner s a)
    (others : ∀ k, k ≠ t → a.trunk k = { s.trunk k with unit := (a.trunk k).unit, tone := (a.trunk k).tone })
    (same : a.trunk t = { s.trunk t with
      decadic := (a.trunk t).decadic, tone := (a.trunk t).tone, unit := (a.trunk t).unit })
    (watch : (a.trunk t).decadic.map DecadicContext.toWatch = (s.trunk t).decadic.map DecadicContext.toWatch)
    (counts : a.traffic = s.traffic ∧ a.sequence = s.sequence) (o : RegOutcome) :
    s.outcomeIn (a.inOutcome t o) t o ∧ (a.inOutcome t o).units = a.units := by
  obtain ⟨ends, units, -⟩ := s.inOutcome_ends a t o state inner others same watch counts.1 counts.2
  cases o <;> exact ⟨ends, units⟩

/-- R84: a trunk whose digit wait has been dropped. -/
theorem State.dropsWait_ends (state : (s.trunk t).state = .inSelecting) (o : RegOutcome) :
    s.outcomeIn ((s.mapReceiver t fun c => { c with wait := none }).inOutcome t o) t o := by
  refine (State.inOutcome_outcomeIn state (s.mapReceiver_inner t _) (fun k hk => ?_) ?_ ?_ ⟨rfl, rfl⟩ o).1
  · rw [State.mapReceiver, State.mapTrunk_trunk_ne _ _ hk]
  · rw [State.mapReceiver, State.mapTrunk_trunk]
  · rw [State.mapReceiver, State.mapTrunk_trunk, Option.map_map]
    refine Option.map_congr fun d _ => ?_
    cases d <;> rfl

theorem State.completeIn_unlinked (hl : (s.trunk t).link = none) : s.completeIn t = s.inOutcome t .complete := by
  simp [State.completeIn, Trunk.outlet, hl]

theorem State.mapReceiver_link (f : DecadicReceiver → DecadicReceiver) :
    ((s.mapReceiver t f).trunk t).link = (s.trunk t).link := by rw [State.mapReceiver, State.mapTrunk_trunk]

end Incoming

/-- Settles O28. -/
theorem decadicDigitWaitEndsTheNumber : Obligations.DecadicDigitWaitEndsTheNumber := by
  unfold Obligations.DecadicDigitWaitEndsTheNumber
  intro s t c k p hp hold state hl engine between wait
  subst hp
  have stopped : (s.mapReceiver t fun c => { c with wait := none }).profileOf t = s.profiles.get (s.trunk t).profile ∧
      ((s.mapReceiver t fun c => { c with wait := none }).trunk t).received = (s.trunk t).received := by
    simp only [State.profileOf, State.mapReceiver, State.mapTrunk_trunk, State.mapTrunk_profiles]
    exact ⟨trivial, trivial⟩
  refine ⟨_, exec_decadicDigitWaitExpiry (State.receiverRunning_some hold engine) between wait, ?_⟩
  unfold State.digitWaitEnded
  dsimp only
  rw [stopped.1, stopped.2]
  split_ifs
  · rw [State.completeIn_unlinked (State.mapReceiver_link _ |>.trans hl)]
    exact State.dropsWait_ends state .complete
  · rw [State.rejectIn_unlinked _ _ _ (State.mapReceiver_link _ |>.trans hl)]
    exact State.dropsWait_ends state (.reject .digitTimeout)

/-! ### The waits for a unit -/

section Waits

variable {s : State} {t : TrunkNo}

/-- R93: the only entry of a trunk in the call wait queue, when its wait timer has expired. -/
theorem State.callWaitDue_some {e : CallWait} (hold : s.hwi.alignment ≠ .hold) (he : e ∈ s.callQueue) (mine : e.trunk = t)
    (due : e.left = 0) (only : ∀ x ∈ s.callQueue, x.trunk = t → x = e) : s.callWaitDue t = some e := by
  have found : (s.callQueue.find? fun x => x.trunk == t && x.left == 0).isSome :=
    List.find?_isSome.mpr ⟨e, he, by simp [mine, due]⟩
  obtain ⟨x, hx⟩ := Option.isSome_iff_exists.mp found
  have isMine : x.trunk = t := by
    have := List.find?_some hx
    simp only [Bool.and_eq_true, beq_iff_eq] at this
    exact this.1
  rw [State.callWaitDue, State.inHold_false hold, if_neg Bool.false_ne_true, hx, only x (List.mem_of_find?_eq_some hx) isMine]

theorem exec_callWaitExpiry {e : CallWait} (due : s.callWaitDue t = some e) :
    exec (.callWaitExpiry t) s = .next (s.callWaitEnded e) := by
  change execCallWaitExpiry t s = _
  rw [execCallWaitExpiry, due]

/-- R96: the expiry of a test request's wait. -/
theorem exec_testWaitExpiry (due : s.testWaitDue t = true) :
    exec (.testWaitExpiry t) s = .next (s.testWaitEnded t) := congrArg Host.Outcome.next (if_pos due)

/-- R93: a sender that has waited out its time. -/
theorem State.callWaitEnded_sender {e : CallWait} (role : e.role = .sender) (state : (s.trunk e.trunk).state = .outSelecting)
    (hl : (s.trunk e.trunk).link = none) :
    (s.callWaitEnded e).callQueue = s.callQueue.filter (fun x => x.trunk != e.trunk) ∧
      s.rejectedOut (s.callWaitEnded e) e.trunk .noUnit ∧ (s.callWaitEnded e).units = s.units := by
  unfold State.callWaitEnded
  rw [role]
  obtain ⟨rejected, -, -, units, queue⟩ := s.outOutcome_rejects (s.leaveQueue e.trunk) e.trunk .noUnit state hl
    (s.leaveQueue_inner _) (fun _ => rfl) rfl rfl
  exact ⟨queue, rejected, units⟩

/-- R93: a receiver that has waited out its time. -/
theorem State.callWaitEnded_receiver {e : CallWait} (role : e.role = .receiver)
    (state : (s.trunk e.trunk).state = .inSelecting) (hl : (s.trunk e.trunk).link = none) :
    (s.callWaitEnded e).callQueue = s.callQueue.filter (fun x => x.trunk != e.trunk) ∧
      s.rejectedIn (s.callWaitEnded e) e.trunk .noUnit ∧ (s.callWaitEnded e).units = s.units := by
  unfold State.callWaitEnded
  rw [role]
  dsimp only
  rw [State.rejectIn_unlinked _ _ _ (by exact hl)]
  obtain ⟨rejected, units, queue⟩ := s.inOutcome_ends (s.leaveQueue e.trunk) e.trunk (.reject .noUnit) state
    (s.leaveQueue_inner _) (fun _ _ => rfl) rfl rfl rfl rfl
  exact ⟨queue.trans (List.filter_filter.trans (by simp)), rejected, units⟩

end Waits

/-- Settles O29. -/
theorem waitQueueExpiriesGiveNoUnit : Obligations.WaitQueueExpiriesGiveNoUnit := by
  unfold Obligations.WaitQueueExpiriesGiveNoUnit
  intro s t hold hl
  refine ⟨?_, fun ⟨r, hr, mine, due⟩ => ?_⟩
  · rintro e he rfl due only
    have expires := exec_callWaitExpiry (State.callWaitDue_some hold he rfl due only)
    exact ⟨fun role state => ⟨_, expires, State.callWaitEnded_sender role state hl⟩,
      fun role state => ⟨_, expires, State.callWaitEnded_receiver role state hl⟩⟩
  · refine exec_testWaitExpiry ?_
    have waits : (s.testQueue.any fun r => r.trunk == t && r.left == 0) = true :=
      List.any_eq_true.mpr ⟨r, hr, by simp [mine, due]⟩
    rw [State.testWaitDue, State.inHold_false hold, waits]
    rfl

end Sys2Proof.Machine
end

section
/-! PROOFS. The timers of a tone receiver. -/

namespace Sys2Proof.Machine

/-! ### What a receiver's outcome leaves -/

section Outcomes

variable {s : State} {t : TrunkNo}

theorem State.endsIn_tone (o : RegOutcome) : ((s.endsIn t o).trunk t).tone = (s.trunk t).tone ∧
    ((s.endsIn t o).trunk t).unit = (s.trunk t).unit := by
  cases o <;>
  · simp only [State.endsIn, State.submit_trunk, State.countFor_trunk, State.mapTrunk_trunk]
    exact ⟨rfl, rfl⟩

theorem State.replies_inner (v : UnitNo) (b : BackwardSignal) (c : ToneReceiver) : Inner s (s.replies t v b c) :=
  (s.mapUnit_inner v _).trans (State.setTone_inner _ t (.receiver c))

/-- R138, R140: a receiver starts the backward signal of an outcome that is taken. -/
theorem State.replies_endsIn (state : (s.trunk t).state = .inSelecting) (v : UnitNo) (b : BackwardSignal)
    (c : ToneReceiver) (o : RegOutcome) :
    s.outcomeIn ((s.replies t v b c).endsIn t o) t o ∧
      (((s.replies t v b c).endsIn t o).trunk t).tone = some (.receiver c) ∧
      (((s.replies t v b c).endsIn t o).unit v).generation =
        some { sig := .backward b, amplitude := (s.profiles.get (s.trunk t).profile).sendAmplitude, n := 0 } := by
  have own := s.replies_trunk t v b c
  have selecting : ((s.replies t v b c).trunk t).state = .inSelecting := by rw [own, state]
  obtain ⟨ends, units⟩ := State.inOutcome_outcomeIn (a := s.replies t v b c) state (State.replies_inner v b c)
    (fun k hk => by rw [State.replies, State.mapTrunk_trunk_ne _ _ hk]; rfl) (by rw [own]) (by rw [own]) ⟨rfl, rfl⟩ o
  rw [State.inOutcome_eq _ _ _ selecting] at ends units
  refine ⟨ends, ?_, ?_⟩
  · rw [(State.endsIn_tone o).1, own]
  · rw [State.unit_congr units, State.replies]
    simp

end Outcomes

/-! ### Timers that have expired -/

section Due

variable {s : State} {t : TrunkNo} {c : ToneReceiver}

theorem State.toneReceiverDue_eq (hold : s.hwi.alignment ≠ .hold) (engine : (s.trunk t).tone = some (.receiver c))
    (kind : ToneTimerKind) : s.toneReceiverDue t kind = if c.timer = some { kind := kind, left := 0 } then some c else none := by
  simp [State.toneReceiverDue, engine, State.inHold_false hold]

theorem exec_pulseTimerExpiry (due : s.toneReceiverDue t .pulse = some c) :
    exec (.pulseTimerExpiry t) s = .next (s.endTone true t) := by
  change execPulseTimerExpiry t s = _
  rw [execPulseTimerExpiry, due]

theorem exec_receiverInterlockExpiry (due : s.toneReceiverDue t .interlock = some c) :
    exec (.receiverInterlockExpiry t) s = .next (s.receiverInterlockEnded t c) := by
  change execReceiverInterlockExpiry t s = _
  rw [execReceiverInterlockExpiry, due]

theorem exec_hostDecisionWaitExpiry (due : s.toneReceiverDue t .hostDecision = some c) :
    exec (.hostDecisionWaitExpiry t) s = .next (s.outsideOutcome t { c with timer := none } (.reject .congestion)) := by
  change execHostDecisionWaitExpiry t s = _
  rw [execHostDecisionWaitExpiry, due]

theorem exec_receiverDigitWaitExpiry {kind : ToneTimerKind} (due : s.toneWaitDue t = some (c, kind)) :
    exec (.receiverDigitWaitExpiry t) s = .next (s.receiverWaitEnded t c kind) := by
  change execReceiverDigitWaitExpiry t s = _
  rw [execReceiverDigitWaitExpiry, due]

/-- R137: a digit wait that has expired in LISTENING. -/
theorem State.toneWaitDue_some {kind : ToneTimerKind} (hold : s.hwi.alignment ≠ .hold)
    (engine : (s.trunk t).tone = some (.receiver c)) (timer : c.timer = some { kind := kind, left := 0 })
    (wait : kind = .interDigit ∨ kind = .openNumber) (listening : c.phase = .listening) :
    s.toneWaitDue t = some (c, kind) := by
  unfold State.toneWaitDue
  rw [State.toneReceiverDue_eq hold engine, State.toneReceiverDue_eq hold engine]
  rcases wait with rfl | rfl <;> simp [timer, listening]

end Due

/-! ### What the expiries do -/

section Expiries

variable {s : State} {t : TrunkNo} {c : ToneReceiver} {h : HeldUnit} (held : (s.trunk t).unit = some h)
  (state : (s.trunk t).state = .inSelecting)
include held

/-- R92: the unit of a trunk becomes free where nothing waits for it. -/
theorem State.endTone_free (calls : s.callQueue = []) (tests : s.testQueue = []) :
    ((s.endTone true t).unit h.unit).status = .free := by
  rw [State.endTone_eq, held, State.frees, State.handsOn]
  simp [calls, tests]

include state

/-- R136: the interlock timer in RESPONDING. -/
theorem State.receiverInterlockEnded_rejects (responding : c.phase = .responding) (hl : (s.trunk t).link = none) :
    s.receiverInterlockEnded t c =
      ((s.mapTrunk t fun r => { r with tone := none, unit := none }).frees (some h)).endsIn t (.reject .protocol) := by
  have same := (s.endTone_pool true t).trunks t
  unfold State.receiverInterlockEnded
  dsimp only
  rw [if_pos responding, State.rejectIn_unlinked _ _ _ (by rw [same]; exact hl),
    State.inOutcome_eq _ _ _ (by rw [same]; exact state), State.endTone_eq, held]

/-- R137: the outcome of a digit wait on a trunk in no relay link. -/
theorem State.receiverWaitEnded_unlinked {kind : ToneTimerKind} (pending : c.pending = none)
    (hl : (s.trunk t).link = none) : s.receiverWaitEnded t c kind = s.pulses t h.unit c (s.waitOutcome t kind) := by
  have outlet : (s.trunk t).outlet = none := by rw [Trunk.outlet, hl]
  have gone : s.inletGone t = s := by rw [State.inletGone, outlet]
  have pulse (o : RegOutcome) : s.pulseOutcome t { c with timer := none } o = s.pulses t h.unit c o :=
    s.pulseOutcome_eq t _ o held state
  unfold State.receiverWaitEnded
  rw [pending, outlet]
  cases s.waitOutcome t kind with
  | complete => exact (congrArg _ rfl).trans (pulse .complete)
  | reject cause => exact (congrArg (State.pulseOutcome · t _ _) gone).trans (pulse (.reject cause))

/-- R137, R139: a digit wait with an outcome pending. -/
theorem State.receiverWaitEnded_pending {kind : ToneTimerKind} {o : PendingOutcome} (pending : c.pending = some o) :
    s.receiverWaitEnded t c kind = s.pulses t h.unit c o.outcome := by
  unfold State.receiverWaitEnded
  rw [pending]
  exact s.pulseOutcome_eq t _ _ held state

/-- R141: the host decision wait on a held end of number. -/
theorem State.hostDecision_takes (phase : c.phase = .held) (pending : c.pending = none) (o : RegOutcome) :
    s.outsideOutcome t { c with timer := none } o = s.takesOutcome t h.unit c o := by
  rw [State.outsideOutcome_eq _ _ _ _ held state (by exact pending)]
  simp only [State.takesOutcome, phase]
  rfl

end Expiries

/-! ### The completion of a tone inlet's number -/

/-- R142, R163: the completion of a tone inlet in LISTENING, where the outlet's engine is not active. -/
theorem State.completeInlet_quiet {s : State} {t peer : TrunkNo} {c : ToneReceiver} (listening : c.phase = .listening)
    (decadic : (s.trunk t).decadic = none) (other : peer ≠ t)
    (idle : (s.trunk peer).decadic = none ∧ (s.trunk peer).tone = none) :
    (s.setTone t (.receiver { c with timer := none, complete := true })).completeInlet t peer =
      (s.mapTrunk t fun r => { r with
        linkRecord := r.linkRecord.map fun l => { l with inletComplete := true }
        tone := some (.receiver { c with timer := none, complete := true }) }).mapTrunk peer fun r => { r with
          send := { r.send with endFlag := true } } := by
  have marked : (s.setTone t (.receiver { c with timer := none, complete := true })).mapTrunk t (fun r => { r.markComplete with
      linkRecord := r.linkRecord.map fun l => { l with inletComplete := true } }) =
      s.mapTrunk t fun r => { r with
        linkRecord := r.linkRecord.map fun l => { l with inletComplete := true }
        tone := some (.receiver { c with timer := none, complete := true }) } := by
    rw [State.setTone, State.mapTrunk_mapTrunk]
    refine State.mapTrunk_congr _ _ ?_
    simp [Trunk.markComplete, decadic, listening]
  unfold State.completeInlet
  dsimp only
  rw [marked]
  unfold State.takeEnd
  simp [State.mapTrunk_trunk_ne _ _ other, idle]

/-- R137, R163: a digit wait that completes the number of a tone inlet. -/
theorem State.receiverWaitEnded_inlet {s : State} {t peer : TrunkNo} {c : ToneReceiver} {kind : ToneTimerKind}
    (pending : c.pending = none) (complete : s.waitOutcome t kind = .complete)
    (hl : (s.trunk t).link = some { peer := peer, part := .inlet }) :
    s.receiverWaitEnded t c kind =
      (s.setTone t (.receiver { c with timer := none, complete := true })).completeInlet t peer := by
  have outlet : (s.trunk t).outlet = some peer := by rw [Trunk.outlet, hl]
  unfold State.receiverWaitEnded
  rw [pending, complete, outlet]

/-- Settles O34. -/
theorem receiverTimersEndTheRegisterPhase : Obligations.ReceiverTimersEndTheRegisterPhase := by
  unfold Obligations.ReceiverTimersEndTheRegisterPhase
  intro s t c h p hp hold engine held hq
  subst hp
  have due {kind : ToneTimerKind} (timer : c.timer = some { kind := kind, left := 0 }) :
      s.toneReceiverDue t kind = some c := by rw [State.toneReceiverDue_eq hold engine, if_pos timer]
  have freed : s.endTone true t = (s.mapTrunk t fun r => { r with tone := none, unit := none }).frees (some h) := by
    rw [State.endTone_eq, held]
  have pool := s.endTone_pool true t
  obtain ⟨unit, tone⟩ := s.endTone_self true t hq
  refine ⟨fun timer => ?_, fun timer responding state hl => ?_, fun k timer wait listening pending state hl => ?_,
    fun timer phase pending state => ?_, fun timer => ?_, fun timer final => ?_, fun timer responding state hl => ?_,
    fun k timer wait listening => ⟨fun o pending state => ?_, fun o pending state hl ho => ?_,
      fun peer pending complete hl decadic other quiet silent => ?_⟩, fun timer phase pending state => ?_⟩
  · refine ⟨_, exec_pulseTimerExpiry (due timer), tone, unit, pool.spares t, (s.endTone_inner true t).keeps, ?_,
      (s.endTone_misc true t).1, State.endTone_free held⟩
    rw [pool.trunks t]
  · obtain ⟨ends, -⟩ := State.inOutcome_outcomeIn (a := s.endTone true t) state (s.endTone_inner true t)
      (fun k _ => pool.trunks k) (by rw [pool.trunks t]) (by rw [pool.trunks t]) ⟨pool.traffic, pool.sequence⟩
      (.reject .protocol)
    rw [State.inOutcome_eq _ _ _ (by rw [pool.trunks t]; exact state)] at ends
    obtain ⟨keepsTone, keepsUnit⟩ := (s.endTone true t).endsIn_tone (t := t) (.reject .protocol)
    have whole : s.receiverInterlockEnded t c = (s.endTone true t).endsIn t (.reject .protocol) :=
      freed ▸ State.receiverInterlockEnded_rejects held state responding hl
    refine ⟨_, exec_receiverInterlockExpiry (due timer), ?_⟩
    rw [whole]
    exact ⟨ends, keepsTone.trans tone, keepsUnit.trans unit⟩
  · obtain ⟨ends, context, signal⟩ := State.replies_endsIn state h.unit (outcomeSignal (s.waitOutcome t k))
      { c with
        phase := .pulsing, pending := none
        timer := some { kind := .pulse, left := (s.profiles.get (s.trunk t).profile).pulseDuration } }
      (s.waitOutcome t k)
    refine ⟨_, exec_receiverDigitWaitExpiry (State.toneWaitDue_some hold engine timer wait listening), ?_⟩
    rw [State.receiverWaitEnded_unlinked held state pending hl]
    refine ⟨by rw [State.pulses, context, pending], ?_⟩
    unfold State.waitOutcome State.profileOf at ends signal
    split_ifs at ends signal with completes
    · rw [if_pos completes, State.pulses, State.waitOutcome, State.profileOf, if_pos completes]
      exact ⟨ends, signal⟩
    · rw [if_neg completes, State.pulses, State.waitOutcome, State.profileOf, if_neg completes]
      exact ⟨ends, signal⟩
  · refine ⟨_, exec_hostDecisionWaitExpiry (due timer), ?_⟩
    rw [State.hostDecision_takes held state phase pending, State.takesOutcome, phase]
    dsimp only
    by_cases ceased : c.heldCeased = true
    · rw [if_pos ceased, if_pos ceased]
      obtain ⟨ends, context, signal⟩ := State.replies_endsIn state h.unit .bt5
        { c with
          phase := .pulsing, pending := none
          timer := some { kind := .pulse, left := (s.profiles.get (s.trunk t).profile).pulseDuration } }
        (.reject .congestion)
      exact ⟨ends, signal, context.trans (by rw [pending])⟩
    · rw [if_neg ceased, if_neg ceased]
      obtain ⟨ends, context, signal⟩ := State.replies_endsIn state h.unit .bt5
        { c with
          phase := .final, pending := none
          timer := some { kind := .interlock, left := 1000 * (s.profiles.get (s.trunk t).profile).interlock } }
        (.reject .congestion)
      exact ⟨ends, signal, context.trans (by rw [pending])⟩
  · rw [exec_pulseTimerExpiry (due timer), freed]
  · rw [exec_receiverInterlockExpiry (due timer), State.receiverInterlockEnded, if_neg (by simp [final]), freed]
  · rw [exec_receiverInterlockExpiry (due timer), State.receiverInterlockEnded_rejects held state responding hl]
  · rw [exec_receiverDigitWaitExpiry (State.toneWaitDue_some hold engine timer wait listening),
      State.receiverWaitEnded_pending held state pending]
  · rw [exec_receiverDigitWaitExpiry (State.toneWaitDue_some hold engine timer wait listening),
      State.receiverWaitEnded_unlinked held state pending hl, ho]
    rfl
  · rw [exec_receiverDigitWaitExpiry (State.toneWaitDue_some hold engine timer wait listening),
      State.receiverWaitEnded_inlet pending (if_pos complete) hl,
      State.completeInlet_quiet listening decadic other ⟨quiet, silent⟩]
  · rw [exec_hostDecisionWaitExpiry (due timer), State.hostDecision_takes held state phase pending]

end Sys2Proof.Machine
end

section
/-! PROOFS. The host's digits: ADD-DIGITS and ACCEPT-DIGITS. -/

namespace Sys2Proof.Machine

/-! ### Payload fields -/

theorem digitOf_byte (d : Digit) : digitOf (byte d.val).toNat = some d := by
  rw [byte_toNat _ (by omega)]
  exact dif_pos d.isLt

/-- R189: a list of digits as it is carried. -/
theorem digitsOf_bytes (ds : List Digit) : digitsOf (ds.map fun d => byte d.val) = some ds := by
  unfold digitsOf
  induction ds with
  | nil => rfl
  | cons d ds ih =>
    rw [List.map_cons, List.mapM_cons, digitOf_byte, ih]
    rfl

theorem flagOf_flagByte (b : Bool) : flagOf (flagByte b).toNat = some b := by cases b <;> rfl

theorem trunkOf_val (t : TrunkNo) : trunkOf (byte t.val).toNat = some t := by
  rw [byte_toNat _ (by omega)]
  exact dif_pos t.isLt

/-! ### Judgements that fail -/

theorem check_bind {α : Type} (b : Bool) (st : Status) (k : Unit → Judged α) :
    (check b st >>= k) = if b then k () else .error st := by cases b <;> rfl

theorem fieldOf_bind_some {α β : Type} {o : Option β} {y : β} (h : o = some y) (k : β → Judged α) :
    (fieldOf o >>= k) = k y := by rw [h]; rfl

/-! ### ADD-DIGITS -/

theorem exec_addDigits (s : State) (p : List Byte) : exec (.addDigits p) s = .next (s.takeAddDigits p) := rfl

/-- The payload of an ADD-DIGITS (08, ADD-DIGITS). -/
def AddedDigits.bytes (a : AddedDigits) : List Byte :=
  [byte a.trunk.val, flagByte a.endFlag, byte a.digits.length] ++ a.digits.map fun d => byte d.val

section Adding

variable {s : State} {t : TrunkNo}

/-- R150: digits that the send store has room for are taken. -/
theorem State.judgeAddDigits_ok {a : AddedDigits} (equipped : (s.trunk a.trunk).role ≠ .unequipped)
    (takes : (s.trunk a.trunk).state.takesDigits = true) (inlet : (s.trunk a.trunk).inlet = none)
    (more : (s.trunk a.trunk).send.endFlag = false) (room : (s.trunk a.trunk).send.digits.length + a.digits.length ≤ 24) :
    s.judgeAddDigits a.bytes = .ok a := by
  have count : byteAt a.bytes 2 = a.digits.length := byte_toNat _ (by omega)
  have len : a.bytes.length = 3 + a.digits.length := by
    simp only [AddedDigits.bytes, List.length_append, List.length_cons, List.length_nil, List.length_map]
  have digits : digitsOf (a.bytes.drop 3) = some a.digits := digitsOf_bytes a.digits
  simp only [State.judgeAddDigits, check_bind_ok, fieldOf_bind_ok, count, len]
  refine ⟨by simp, a.trunk, trunkOf_val _, a.endFlag, flagOf_flagByte _, by simp; omega, a.digits, digits, by simp [equipped],
    takes, by simp [inlet], by simp [more], decide_eq_true room, rfl⟩

/-- R150: an accepted ADD-DIGITS. -/
theorem State.takeAddDigits_ok {a : AddedDigits} (equipped : (s.trunk a.trunk).role ≠ .unequipped)
    (takes : (s.trunk a.trunk).state.takesDigits = true) (hl : (s.trunk a.trunk).link = none)
    (more : (s.trunk a.trunk).send.endFlag = false) (room : (s.trunk a.trunk).send.digits.length + a.digits.length ≤ 24) :
    exec (.addDigits a.bytes) s = .next ((s.appendDigits a).sendReply 0x11 .ok []) := by
  rw [exec_addDigits, State.takeAddDigits,
    State.judgeAddDigits_ok equipped takes (by rw [Trunk.inlet, hl]) more room]
  rfl

/-- R150: what the sending engine does with the digits stored. -/
theorem State.appendDigits_eq {a : AddedDigits} {y : State} (more : (s.trunk a.trunk).send.endFlag = false)
    (hy : y = s.mapTrunk a.trunk fun r => { r with
      send := { r.send with digits := r.send.digits ++ a.digits, endFlag := a.endFlag } }) :
    s.appendDigits a =
      if a.digits = [] then (if a.endFlag then y.takeEnd a.trunk else y) else y.takeDigits a.trunk := by
  have stored : (s.mapTrunk a.trunk fun r => { r with
      send := { r.send with digits := r.send.digits ++ a.digits, endFlag := r.send.endFlag || a.endFlag } }) = y := by
    rw [hy]
    exact State.mapTrunk_congr _ _ (by simp [more])
  unfold State.appendDigits
  rw [stored]
  simp only [List.isEmpty_iff]

/-- R150: where no sending engine works on the trunk, the store alone changes. -/
theorem State.takeDigits_none (decadic : (s.trunk t).decadic = none) (tone : (s.trunk t).tone = none) :
    s.takeDigits t = s ∧ s.takeEnd t = s := by
  simp [State.takeDigits, State.takeEnd, decadic, tone]

/-- R127: a tone sender that waits goes on with its next item. -/
theorem State.takeDigits_tone {c : ToneSender} {h : HeldUnit} (decadic : (s.trunk t).decadic = none)
    (tone : (s.trunk t).tone = some (.sender c)) (unit : (s.trunk t).unit = some h) :
    s.takeDigits t = (if c.phase = .waiting then s.sendsNext t h.unit c else s) ∧
      s.takeEnd t = if c.phase = .waiting then s.sendsNext t h.unit c else s := by
  simp [State.takeDigits, State.takeEnd, decadic, tone, s.chooseItem_eq t c unit]

/-- R76: a decadic sender that does not wait takes its digits later. -/
theorem State.takeDigits_sending {c : DecadicSender} (engine : (s.trunk t).decadic = some (.sending c))
    (busy : c.phase ≠ .waiting) : s.takeDigits t = s ∧ s.takeEnd t = s := by
  simp [State.takeDigits, State.takeEnd, engine, busy]

/-- R76: a decadic sender that waits starts the digit at once. -/
theorem State.takeDigits_starts {c : DecadicSender} {d : Digit} {p : Profile}
    (hp : p = s.profiles.get (s.trunk t).profile) (hold : s.hwi.alignment ≠ .hold)
    (engine : (s.trunk t).decadic = some (.sending c)) (waits : c.phase = .waiting)
    (current : (s.trunk t).send.current = some d) :
    s.takeDigits t = s.mapTrunk t fun r => { r with
      sentCode := p.codes.fClear
      decadic := some (.sending { c with phase := .breaking, breaks := digitBreaks d, timer := some p.sendBreak }) } := by
  simp only [State.takeDigits, engine, waits, if_true, State.inHold_false hold, Bool.false_eq_true, if_false, current,
    State.startBreak, State.sendSignal, State.mapTrunk_mapTrunk]
  simp [State.profileOf, ← hp, SendCodes.of]

/-- R77: in hold a decadic sender that waits drops its wait. -/
theorem State.takeDigits_hold {c : DecadicSender} (hold : s.hwi.alignment = .hold)
    (engine : (s.trunk t).decadic = some (.sending c)) (waits : c.phase = .waiting) :
    s.takeDigits t = s.mapTrunk t fun r => { r with decadic := some (.sending { c with timer := none }) } := by
  simp [State.takeDigits, engine, waits, State.inHold, hold]

/-- R76: the end flag completes a number of which nothing is left to send. -/
theorem State.takeEnd_completes {c : DecadicSender} (engine : (s.trunk t).decadic = some (.sending c))
    (waits : c.phase = .waiting) (sent : (s.trunk t).send.current = none) (state : (s.trunk t).state = .outSelecting)
    (hl : (s.trunk t).link = none) : s.takeEnd t = s.endsOut t .complete := by
  simp only [State.takeEnd, engine, waits, sent, and_self, if_true, s.outOutcome_eq t _ state hl]

end Adding

/-! ### ACCEPT-DIGITS -/

/-- R151: the outcome that the host gives. -/
theorem acceptOutcomeOf_listed {code : Byte} {o : RegOutcome}
    (h : (code, o) ∈ [((0 : Byte), RegOutcome.complete), (1, .reject .congestion), (2, .reject .unobtainable)]) :
    acceptOutcomeOf code.toNat = some o := by
  simp only [List.mem_cons, Prod.mk.injEq, List.not_mem_nil, or_false] at h
  rcases h with ⟨rfl, rfl⟩ | ⟨rfl, rfl⟩ | ⟨rfl, rfl⟩ <;> rfl

section Accepting

variable {s : State} {t : TrunkNo} {code : Byte} {o : RegOutcome} (equipped : (s.trunk t).role ≠ .unequipped)
  (state : (s.trunk t).state = .inSelecting) (unfinished : ((s.trunk t).linkRecord.map (·.inletComplete)).getD false = false)
  (listed : (code, o) ∈ [((0 : Byte), RegOutcome.complete), (1, .reject .congestion), (2, .reject .unobtainable)])
include equipped state unfinished listed

/-- R151: the judgement of an ACCEPT-DIGITS at a trunk whose number is not complete. -/
theorem State.judgeAcceptDigits_eq : s.judgeAcceptDigits [byte t.val, code] =
    if (s.trunk t).outcomePending then .error .badState else .ok (t, o) := by
  have trunk : trunkOf (byteAt [byte t.val, code] 0) = some t := trunkOf_val t
  have outcome : acceptOutcomeOf (byteAt [byte t.val, code] 1) = some o := acceptOutcomeOf_listed listed
  simp only [State.judgeAcceptDigits, check_bind, fieldOf_bind_some trunk, fieldOf_bind_some outcome]
  cases (s.trunk t).outcomePending <;> simp [equipped, state, unfinished, pure, Except.pure]

/-- R151: an ACCEPT-DIGITS at a trunk in no relay link. -/
theorem State.takeAcceptDigits_eq (hl : (s.trunk t).link = none) : exec (.acceptDigits [byte t.val, code]) s =
    .next (if (s.trunk t).outcomePending then s.sendReply 0x12 .badState []
      else (s.takeCarried t o).sendReply 0x12 .ok []) := by
  have outlet : (s.trunk t).outlet = none := by rw [Trunk.outlet, hl]
  change Host.Outcome.next (s.takeAcceptDigits [byte t.val, code]) = _
  rw [State.takeAcceptDigits, State.judgeAcceptDigits_eq equipped state unfinished listed]
  split_ifs
  · rfl
  · dsimp only
    simp only [State.acceptNumber, outlet]
    rfl

/-- R58, R151: an outcome at a trunk without a tone receiver. -/
theorem State.acceptDigits_plain (hl : (s.trunk t).link = none) (tone : (s.trunk t).tone = none) :
    exec (.acceptDigits [byte t.val, code]) s = .next ((s.inOutcome t o).sendReply 0x12 .ok []) ∧
      s.outcomeIn (s.inOutcome t o) t o ∧
      (s.inOutcome t o).callQueue = s.callQueue.filter fun x => x.trunk != t := by
  have free : (s.trunk t).outcomePending = false := by simp [Trunk.outcomePending, tone]
  refine ⟨?_, (State.inOutcome_outcomeIn state (.refl s) (fun _ _ => rfl) rfl rfl ⟨rfl, rfl⟩ o).1,
    (s.inOutcome_ends s t o state (.refl s) (fun _ _ => rfl) rfl rfl rfl rfl).2.2⟩
  rw [State.takeAcceptDigits_eq equipped state unfinished listed hl, free, State.takeCarried, tone]
  rfl

end Accepting

/-- Settles O50. -/
theorem hostAddsAndJudgesDigits : Obligations.HostAddsAndJudgesDigits := by
  unfold Obligations.HostAddsAndJudgesDigits
  intro s t p hp equipped hl
  have selecting (h : (s.trunk t).state = .outSelecting) : (s.trunk t).state.takesDigits = true := by rw [h]; rfl
  refine ⟨fun e ds state more room decadic tone => ?_, fun d c state more room last engine waits hold => ?_,
    fun state record tone => ⟨?_, ?_, ?_⟩, fun e ds c h y state more room decadic tone unit hy => ?_,
    fun e ds c y state more room engine hy => ⟨fun busy => ?_, fun waits hold some_digits => ?_,
      fun waits no_digits flag last => ?_⟩,
    fun c h code o state record tone unit listed => ?_⟩
  · have takes : (s.trunk t).state.takesDigits = true := by
      simp only [List.mem_cons, List.not_mem_nil, or_false] at state
      rcases state with h | h | h | h | h | h <;> rw [h] <;> rfl
    have idle := State.takeDigits_none (t := t) (s := s.mapTrunk t fun r => { r with
      send := { r.send with digits := r.send.digits ++ ds, endFlag := e } })
      (by rw [State.mapTrunk_trunk]; exact decadic) (by rw [State.mapTrunk_trunk]; exact tone)
    refine (State.takeAddDigits_ok (a := ⟨t, e, ds⟩) equipped takes hl more room).trans ?_
    rw [State.appendDigits_eq (a := ⟨t, e, ds⟩) more rfl, idle.1, idle.2, ite_self, ite_self]
  · have starts := State.takeDigits_starts (t := t) (c := c) (d := d) (p := p)
      (s := s.mapTrunk t fun r => { r with send := { r.send with digits := r.send.digits ++ [d], endFlag := false } })
      (by rw [State.mapTrunk_trunk]; exact hp) hold (by rw [State.mapTrunk_trunk]; exact engine) waits
      (by simp [State.mapTrunk_trunk, SendStore.current, last])
    refine (State.takeAddDigits_ok (a := ⟨t, false, [d]⟩) equipped (selecting state) hl more room).trans ?_
    rw [State.appendDigits_eq (a := ⟨t, false, [d]⟩) more rfl, if_neg (by simp), starts, State.mapTrunk_mapTrunk]
    refine congrArg (fun x : State => Host.Outcome.next (x.sendReply 0x11 .ok [])) (State.mapTrunk_congr _ _ ?_)
    simp [more, digitBreaks]
  · exact ⟨_, State.acceptDigits_plain (code := 0) (o := .complete) equipped state (by simp [record]) (by simp) hl tone⟩
  · exact ⟨_, State.acceptDigits_plain (code := 1) (o := .reject .congestion) equipped state
      (by simp [record]) (by simp) hl tone⟩
  · exact ⟨_, State.acceptDigits_plain (code := 2) (o := .reject .unobtainable) equipped state
      (by simp [record]) (by simp) hl tone⟩
  · have next := State.takeDigits_tone (s := y) (t := t) (c := c) (h := h) (by rw [hy, State.mapTrunk_trunk]; exact decadic)
      (by rw [hy, State.mapTrunk_trunk]; exact tone) (by rw [hy, State.mapTrunk_trunk]; exact unit)
    refine (State.takeAddDigits_ok (a := ⟨t, e, ds⟩) equipped (selecting state) hl more room).trans ?_
    rw [State.appendDigits_eq (a := ⟨t, e, ds⟩) more hy, next.1, next.2]
    by_cases none_added : ds = []
    · cases e <;> simp [none_added]
    · simp [none_added]
  · have later := State.takeDigits_sending (s := y) (t := t) (by rw [hy, State.mapTrunk_trunk]; exact engine) busy
    refine (State.takeAddDigits_ok (a := ⟨t, e, ds⟩) equipped (selecting state) hl more room).trans ?_
    rw [State.appendDigits_eq (a := ⟨t, e, ds⟩) more hy, later.1, later.2, ite_self, ite_self]
  · refine (State.takeAddDigits_ok (a := ⟨t, e, ds⟩) equipped (selecting state) hl more room).trans ?_
    rw [State.appendDigits_eq (a := ⟨t, e, ds⟩) more hy, if_neg some_digits,
      State.takeDigits_hold (c := c) (by rw [hy]; exact hold) (by rw [hy, State.mapTrunk_trunk]; exact engine) waits]
  · subst no_digits flag
    refine (State.takeAddDigits_ok (a := ⟨t, true, []⟩) equipped (selecting state) hl more room).trans ?_
    rw [State.appendDigits_eq (a := ⟨t, true, []⟩) more hy, if_pos rfl, if_pos rfl,
      State.takeEnd_completes (c := c) (by rw [hy, State.mapTrunk_trunk]; exact engine) waits
        (by simp [hy, State.mapTrunk_trunk, SendStore.current, last]) (by rw [hy, State.mapTrunk_trunk]; exact state)
        (by rw [hy, State.mapTrunk_trunk]; exact hl)]
  · rw [State.takeAcceptDigits_eq equipped state (by simp [record]) listed hl]
    refine congrArg Host.Outcome.next ?_
    by_cases pending : c.pending = none
    · rw [if_pos pending, if_neg (by simp [Trunk.outcomePending, tone, pending]), State.takeCarried, tone]
      dsimp only
      rw [State.outsideOutcome_eq _ _ _ _ unit state pending]
    · rw [if_neg pending, if_pos]
      rw [Trunk.outcomePending, tone]
      exact Option.isSome_iff_ne_none.mpr pending

end Sys2Proof.Machine
end

section
/-! PROOFS. SEIZE, with and without its relay part. -/

namespace Sys2Proof.Machine

/-! ### The payload of a SEIZE -/

theorem categoryOf_code (k : Category) : categoryOf (byte k.code).toNat = some k := by cases k <;> rfl

/-- R189: the two bytes of a call reference. -/
theorem natOf_ref (ref : CallRef) : BitVec.ofNat 16 (natOf [ref.extractLsb' 8 8, ref.extractLsb' 0 8]) = ref := by
  have bound := ref.isLt
  refine BitVec.eq_of_toNat_eq ?_
  simp only [natOf, List.foldl_cons, List.foldl_nil, BitVec.toNat_ofNat, BitVec.extractLsb'_toNat, Nat.shiftRight_eq_div_pow]
  omega

theorem digitBytes_length (ds : List Digit) : (digitBytes ds).length = ds.length := List.length_map _

/-- R189: the payload of a SEIZE, with its relay part as it is carried. -/
def seizeBytes (t : TrunkNo) (ref : CallRef) (k : Category) (e : Bool) (ds : List Digit) (relay : List Byte) : List Byte :=
  [byte t.val, ref.extractLsb' 8 8, ref.extractLsb' 0 8, byte k.code, flagByte e, byte ds.length] ++
    digitBytes ds ++ relay

section Reading

variable {t : TrunkNo} {ref : CallRef} {k : Category} {e : Bool} {ds : List Digit}

/-- R43, R189: a SEIZE without a relay part is well formed and read as sent. -/
theorem readSeize_alone (len : ds.length ≤ 24) : seizeWellFormed (seizeBytes t ref k e ds [0]) = true ∧
    readSeize (seizeBytes t ref k e ds [0]) =
      some { trunk := t, ref := ref, category := k, endFlag := e, digits := ds, relay := none } := by
  have count : byteAt (seizeBytes t ref k e ds [0]) 5 = ds.length := byte_toNat _ (by omega)
  have relay : byteAt (seizeBytes t ref k e ds [0]) (6 + ds.length) = 0 := by
    simp [byteAt, seizeBytes, digitBytes_length, Nat.add_comm 6]
  have taken : ((seizeBytes t ref k e ds [0]).drop 6).take ds.length = digitBytes ds := by
    change (digitBytes ds ++ [0]).take ds.length = _
    exact List.take_left' (digitBytes_length ds)
  have length : (seizeBytes t ref k e ds [0]).length = 7 + ds.length := by
    simp only [seizeBytes, List.length_append, List.length_cons, List.length_nil, digitBytes_length]
    omega
  constructor
  · simp only [seizeWellFormed, count, relay, length]
    simp
  · have room : ds.length ≤ Config.storeRoom := len
    have first : ((seizeBytes t ref k e ds [0]).drop 1).take 2 = [ref.extractLsb' 8 8, ref.extractLsb' 0 8] := rfl
    have trunk : trunkOf (byteAt (seizeBytes t ref k e ds [0]) 0) = some t := trunkOf_val t
    have category : categoryOf (byteAt (seizeBytes t ref k e ds [0]) 3) = some k := categoryOf_code k
    have flag : flagOf (byteAt (seizeBytes t ref k e ds [0]) 4) = some e := flagOf_flagByte e
    unfold readSeize
    dsimp only
    rw [count, relay, taken, first, natOf_ref, trunk, category, flag, show digitsOf (digitBytes ds) = some ds from digitsOf_bytes ds]
    simp [flagOf, room]

/-- R189: the relay part of a SEIZE as it is carried. -/
def relayBytes (inlet delete : Byte) (ins : List Digit) : List Byte :=
  [1, inlet, delete, byte ins.length] ++ digitBytes ins

/-- R43, R189: a SEIZE with a relay part and no digits of its own is well formed and read as sent. -/
theorem readSeize_relay {inlet d : Byte} {ins : List Digit} (len : ins.length ≤ 4) :
    seizeWellFormed (seizeBytes t ref k false [] (relayBytes inlet d ins)) = true ∧
      readSeize (seizeBytes t ref k false [] (relayBytes inlet d ins)) =
        some { trunk := t, ref := ref, category := k, endFlag := false, digits := []
               relay := some { inlet := inlet.toNat, delete := d.toNat, insert := digitBytes ins } } := by
  have count : byteAt (seizeBytes t ref k false [] (relayBytes inlet d ins)) 5 = 0 := rfl
  have relay : byteAt (seizeBytes t ref k false [] (relayBytes inlet d ins)) (6 + 0) = 1 := rfl
  have inserted : byteAt (seizeBytes t ref k false [] (relayBytes inlet d ins)) (9 + 0) = ins.length :=
    byte_toNat _ (by omega)
  have length : (seizeBytes t ref k false [] (relayBytes inlet d ins)).length = 10 + ins.length := by
    simp only [seizeBytes, relayBytes, List.length_append, List.length_cons, List.length_nil, digitBytes_length]
    omega
  constructor
  · simp only [seizeWellFormed, count, relay, inserted, length]
    simp
    omega
  · have first : ((seizeBytes t ref k false [] (relayBytes inlet d ins)).drop 1).take 2 =
        [ref.extractLsb' 8 8, ref.extractLsb' 0 8] := rfl
    have trunk : trunkOf (byteAt (seizeBytes t ref k false [] (relayBytes inlet d ins)) 0) = some t := trunkOf_val t
    have category : categoryOf (byteAt (seizeBytes t ref k false [] (relayBytes inlet d ins)) 3) = some k :=
      categoryOf_code k
    unfold readSeize
    dsimp only
    rw [count, relay, first, natOf_ref, trunk, category]
    rfl

end Reading

/-! ### The judgement of a SEIZE -/

section Judging

variable {s : State} {p : List Byte} {f : SeizeFields} (read : seizeWellFormed p = true ∧ readSeize p = some f)
  (role : (s.trunk f.trunk).role = .outgoing ∨ (s.trunk f.trunk).role = .bothWay) (idle : (s.trunk f.trunk).state = .idle)
include read role idle

/-- R43: a SEIZE without a relay part on an idle trunk that can call out. -/
theorem State.judgeSeize_alone (alone : f.relay = none) : s.judgeSeize p = .ok (f, none) := by
  simp only [State.judgeSeize, check_bind_ok, fieldOf_bind_ok, read.1, read.2]
  refine ⟨trivial, f, rfl, ?_, ?_, by simp [idle], by rw [alone]; rfl⟩ <;> rcases role with role | role <;> simp [role]

/-- R43, R160: a SEIZE with a relay part that meets the relay conditions. -/
theorem State.judgeSeize_relay {k : RelayPart} {q : RelayRequest} (relay : f.relay = some k)
    (meets : s.judgeRelay f k = .ok q) : s.judgeSeize p = .ok (f, some q) := by
  simp only [State.judgeSeize, check_bind_ok, fieldOf_bind_ok, read.1, read.2]
  refine ⟨trivial, f, rfl, ?_, ?_, by simp [idle], by simp only [relay, meets]; rfl⟩ <;>
    rcases role with role | role <;> simp [role]

end Judging

/-- R160: the relay conditions. -/
theorem State.judgeRelay_ok {s : State} {f : SeizeFields} {q : RelayRequest} (own : f.digits = [] ∧ f.endFlag = false)
    (other : q.inlet ≠ f.trunk) (delete : q.delete ≤ 24) (insert : q.insert.length ≤ 4)
    (inlet : (s.trunk q.inlet).role ≠ .unequipped ∧ (s.trunk q.inlet).state = .inSelecting ∧
      (s.trunk q.inlet).link = none ∧ (s.trunk q.inlet).outcomePending = false)
    (method : (s.profiles.get (s.trunk f.trunk).profile).method ≠ .noRegister)
    (room : q.insert.length + ((s.trunk q.inlet).received.digits.length - q.delete) ≤ 24) :
    s.judgeRelay f { inlet := (byte q.inlet.val).toNat, delete := (byte q.delete).toNat, insert := digitBytes q.insert } = .ok q := by
  rw [byte_toNat q.delete (by omega)]
  obtain ⟨equipped, selecting, unlinked, free⟩ := inlet
  obtain ⟨none_given, more⟩ := own
  simp only [State.judgeRelay, check_bind_ok, fieldOf_bind_ok, digitBytes_length]
  refine ⟨q.inlet, trunkOf_val _, by simp [other, delete, insert], q.insert, digitsOf_bytes _, by simp [none_given, more],
    by simp [equipped, selecting, unlinked, free], ?_, decide_eq_true room, rfl⟩
  simpa [State.profileOf] using method

/-! ### The outgoing call and its link -/

section Starting

variable {s : State} {p : Profile}

/-- R43: an outgoing call starts. -/
theorem State.startCall_eq {f : SeizeFields} (hp : p = s.profiles.get (s.trunk f.trunk).profile) :
    s.startCall f = (s.mapTrunk f.trunk fun r => { r with
      send := { digits := f.digits, endFlag := f.endFlag, pos := 1 }
      callRef := some f.ref
      record := some
        { ref := f.ref, trunk := f.trunk, direction := .outgoing, category := some f.category, seizeTime := s.tmb.counter
          ackTime := none, answerTime := none, answerCount := 0, digits := [], conversation := 0, occupancy := 0 }
      state := .outSeizing, sentCode := p.codes.fSeize, timer := some { kind := .ack, left := p.ackTimer } }).countFor
        f.trunk fun c => { c with outAttempts := min 4294967295 (c.outAttempts + 1) } := by
  unfold State.startCall State.openRecord State.startTimer
  dsimp only
  rw [State.enter_at (p := p) (by rw [State.countFor_trunk, State.mapTrunk_trunk, State.mapTrunk_trunk]; exact hp)]
  simp only [State.mapTrunk_countFor, State.mapTrunk_mapTrunk, State.countFor_profileOf]
  have names : ∀ g : Trunk → Trunk, (g (s.trunk f.trunk)).profile = (s.trunk f.trunk).profile →
      (s.mapTrunk f.trunk g).profileOf f.trunk = p := State.mapTrunk_profile hp
  rw [names _ rfl]
  rfl

/-- R161: the link of an inlet whose end of number has not been received. -/
theorem State.makeLink_eq {outlet : TrunkNo} {q : RelayRequest} (more : (s.trunk q.inlet).received.endReceived = false)
    (other : q.inlet ≠ outlet) : s.makeLink outlet q =
      (s.mapTrunk outlet fun r => { r with
        link := some { peer := q.inlet, part := .outlet }
        send := { digits := q.insert ++ (s.trunk q.inlet).received.digits.drop q.delete, endFlag := false, pos := 1 } }).mapTrunk
          q.inlet fun r => { r with
            link := some { peer := outlet, part := .inlet }
            linkRecord := some
              { delete := q.delete, relayed := ((s.trunk q.inlet).received.digits.drop q.delete).length
                inletComplete := false } } := by
  unfold State.makeLink
  dsimp only
  rw [State.mapTrunk_comm _ other, if_neg (by simp [State.mapTrunk_trunk, State.mapTrunk_trunk_ne _ _ other, more])]

end Starting

/-- R43, R161: an accepted SEIZE. -/
theorem exec_seize_ok {s : State} {p : List Byte} {f : SeizeFields} {q : Option RelayRequest}
    (judged : s.judgeSeize p = .ok (f, q)) : exec (.seize p) s =
      .next ((match q with
        | none => s.startCall f
        | some q => (s.startCall f).makeLink f.trunk q).sendReply 0x10 .ok []) := by
  change Host.Outcome.next (s.takeSeize p) = _
  rw [State.takeSeize, judged]
  cases q <;> rfl

/-- Settles O49. -/
theorem seizeStartsAnOutgoingCall : Obligations.SeizeStartsAnOutgoingCall := by
  unfold Obligations.SeizeStartsAnOutgoingCall
  intro s t ref k e ds p hp role idle
  refine ⟨fun len => ?_, fun inlet d ins other delete insert equipped selecting unlinked pending method room more => ?_⟩
  · refine (exec_seize_ok (State.judgeSeize_alone (readSeize_alone len) role idle rfl)).trans ?_
    dsimp only
    rw [State.startCall_eq hp]
  · have free : (s.trunk inlet).outcomePending = false := by
      cases tone : (s.trunk inlet).tone with
      | none => simp [Trunk.outcomePending, tone]
      | some x =>
        cases x with
        | sender c => simp [Trunk.outcomePending, tone]
        | receiver c => simp [Trunk.outcomePending, tone, pending c tone]
    have meets := State.judgeRelay_ok (s := s) (q := ⟨inlet, d, ins⟩)
      (f := { trunk := t, ref := ref, category := k, endFlag := false, digits := []
              relay := some { inlet := (byte inlet.val).toNat, delete := (byte d).toNat, insert := digitBytes ins } })
      ⟨rfl, rfl⟩ other delete insert ⟨equipped, selecting, unlinked, free⟩ (hp ▸ method) room
    have read := readSeize_relay (t := t) (ref := ref) (k := k) (inlet := byte inlet.val) (d := byte d) insert
    refine (exec_seize_ok (State.judgeSeize_relay read role idle rfl meets)).trans ?_
    dsimp only
    have same : ((s.startCall { trunk := t, ref := ref, category := k, endFlag := false, digits := []
                                relay := some { inlet := (byte inlet.val).toNat, delete := (byte d).toNat
                                                insert := digitBytes ins } }).trunk inlet) = s.trunk inlet := by
      rw [State.startCall_eq hp, State.countFor_trunk, State.mapTrunk_trunk_ne _ _ other]
    rw [State.makeLink_eq (by rw [same]; exact more) other, same, State.startCall_eq hp]
    rw [State.mapTrunk_countFor _ _ _ _ _ (by rfl), State.mapTrunk_countFor _ _ _ _ _ (by rfl), State.mapTrunk_mapTrunk]

end Sys2Proof.Machine
end

section
/-! PROOFS. What the work on one trunk leaves of another trunk that waits for no tone unit. -/

namespace Sys2Proof.Machine

/-- A trunk that waits for no unit keeps its record, and still waits for none. -/
def State.untouched (s u : State) (k : TrunkNo) : Prop :=
  (∀ e ∈ s.callQueue, e.trunk ≠ k) → u.trunk k = s.trunk k ∧ ∀ e ∈ u.callQueue, e.trunk ≠ k

section Untouched

variable {s u v : State} {t k : TrunkNo}

theorem State.untouched.trans (h : s.untouched u k) (i : u.untouched v k) : s.untouched v k := by
  intro waits
  obtain ⟨same, quiet⟩ := h waits
  obtain ⟨same', quiet'⟩ := i quiet
  exact ⟨same'.trans same, quiet'⟩

/-- A change that leaves the trunk's record and adds no entry of its own to the call wait queue. -/
theorem State.untouched_of (same : u.trunk k = s.trunk k) (queue : ∀ e ∈ u.callQueue, e ∈ s.callQueue ∨ e.trunk ≠ k) :
    s.untouched u k := fun waits => ⟨same, fun e he => (queue e he).elim (waits e) id⟩

theorem State.untouched.refl : s.untouched s k := State.untouched_of rfl fun _ he => .inl he

theorem State.submit_untouched (x : Option TrunkNo) (b : ReportBody) : s.untouched (s.submit x b) k :=
  State.untouched_of (State.submit_trunk _ _ _ _) fun _ he => .inl (State.submit_callQueue _ _ _ ▸ he)

theorem State.countFor_untouched (n : TrunkNo) (f : Traffic → Traffic) : s.untouched (s.countFor n f) k :=
  State.untouched_of rfl fun _ he => .inl he

variable (other : k ≠ t)
include other

theorem State.mapTrunk_untouched (f : Trunk → Trunk) : s.untouched (s.mapTrunk t f) k :=
  State.untouched_of (State.mapTrunk_trunk_ne _ _ other) fun _ he => .inl he

theorem State.endsIn_untouched (o : RegOutcome) : s.untouched (s.endsIn t o) k := by
  have filtered : ∀ e ∈ s.callQueue.filter (fun e => e.trunk != t), e ∈ s.callQueue ∨ e.trunk ≠ k :=
    fun e he => .inl (List.mem_of_mem_filter he)
  cases o with
  | complete =>
    exact (State.untouched_of rfl filtered : s.untouched (s.leaveQueue t) k).trans
      (((State.mapTrunk_untouched other _).trans (State.mapTrunk_untouched other _)).trans (State.submit_untouched _ _))
  | reject cause =>
    exact (State.untouched_of rfl filtered : s.untouched (s.leaveQueue t) k).trans
      ((((State.mapTrunk_untouched other _).trans (State.mapTrunk_untouched other _)).trans
        (State.submit_untouched _ _)).trans (State.countFor_untouched _ _))

omit other in
/-- R92: a unit that becomes free goes to no trunk that waits for none. -/
theorem State.frees_untouched (h : Option HeldUnit) : s.untouched (s.frees h) k := by
  intro waits
  exact ⟨State.frees_trunk s k h waits, fun e he => waits e (State.frees_callQueue s h e he)⟩

theorem State.quitsWork_untouched (f : Trunk → Trunk) : s.untouched (s.quitsWork t f) k :=
  (State.untouched_of rfl fun _ he => .inl (List.mem_of_mem_filter he) : s.untouched (s.leaveQueue t) k).trans
    ((State.mapTrunk_untouched other _).trans (State.frees_untouched _))

theorem State.callEnds_untouched (cause : Cause) : s.untouched (s.callEnds t cause) k := by
  rw [State.callEnds_eq]
  refine (State.quitsWork_untouched other (Trunk.freedBy s.profiles)).trans ?_
  cases (s.trunk t).record
  · exact .refl
  · exact State.submit_untouched _ _

theorem State.unblocks_untouched : s.untouched (s.unblocks t) k := by
  unfold State.unblocks
  split_ifs
  · exact (State.mapTrunk_untouched other _).trans (State.submit_untouched _ _)
  · exact .refl

theorem State.blocks_untouched : s.untouched (s.blocks t) k := by
  unfold State.blocks
  split_ifs
  · exact .refl
  · exact (State.mapTrunk_untouched other _).trans (State.submit_untouched _ _)

theorem State.granted_untouched (n : UnitNo) (role : UnitRole) : s.untouched (s.granted n t role) k :=
  State.untouched_of (State.granted_trunk _ other.symm _ _) fun _ he => .inl ((State.granted_queues _ _ _ _).1 ▸ he)

theorem State.grantOrQueue_untouched (role : UnitRole) : s.untouched (s.grantOrQueue t role) k := by
  unfold State.grantOrQueue
  cases s.freeUnitNo with
  | some n =>
    dsimp only
    rw [State.grantCall_eq]
    exact State.granted_untouched other n role
  | none =>
    have joined : s.untouched (s.withCallQueue
        (s.callQueue ++ [{ trunk := t, role := role, left := (s.profileOf t).unitWait }])) k := by
      refine State.untouched_of rfl fun e he => ?_
      rcases List.mem_append.mp he with he | he
      · exact .inl he
      · rw [List.mem_singleton.mp he]
        exact .inr other.symm
    exact joined.trans (State.submit_untouched _ _)

theorem State.callRequest_untouched (role : UnitRole) : s.untouched (s.callRequest t role) k := by
  unfold State.callRequest
  cases s.measuringUnit t with
  | some x =>
    dsimp only
    rw [State.grantCall_eq]
    exact (State.submit_untouched _ _).trans (State.granted_untouched other _ _)
  | none =>
    dsimp only
    split_ifs
    · have dropped : s.untouched (s.withTestQueue (s.testQueue.filter fun r => r.trunk != t)) k :=
        State.untouched_of rfl fun _ he => .inl he
      exact (dropped.trans (State.submit_untouched _ _)).trans (State.grantOrQueue_untouched other role)
    · exact State.grantOrQueue_untouched other role

theorem State.incomingSeizure_untouched : s.untouched (s.incomingSeizure t) k := by
  obtain ⟨p, hp⟩ : ∃ p, p = s.profiles.get (s.trunk t).profile := ⟨_, rfl⟩
  have opened : s.untouched (s.opensIncoming t p) k := by
    refine State.untouched_of ?_ fun e he => .inl ?_
    · rw [State.opensIncoming_trunk, if_neg other]
    · rw [State.opensIncoming, State.submit_callQueue] at he
      exact he
  have names := State.opensIncoming_names hp
  have selecting : ((s.opensIncoming t p).trunk t).state = .inSelecting := by
    rw [State.opensIncoming_trunk, if_pos rfl]
  rw [State.incomingSeizure_eq hp]
  refine opened.trans ?_
  cases method : p.method with
  | noRegister =>
    rw [(State.startReceiving_none names selecting method).1]
    exact State.endsIn_untouched other _
  | decadic =>
    rw [State.startReceiving_decadic names method]
    exact State.mapTrunk_untouched other _
  | tone =>
    rw [State.startReceiving_tone names method]
    exact State.callRequest_untouched other _

theorem State.idleDecodes_untouched : s.untouched (s.idleDecodes t) k := by
  have anomaly (code : LineCode) : s.untouched (s.submit (some t) (.lineAnomaly code .unexpectedCode)) k :=
    State.submit_untouched _ _
  have blocked := (State.blocks_untouched (s := s) other).trans
    (State.mapTrunk_untouched other fun r => { r with
      state := .remoteBlocked, sentCode := (s.profiles.get (s.trunk t).profile).codes.fIdle })
  have seized := State.incomingSeizure_untouched (s := s) other
  have cleared := State.unblocks_untouched (s := s) other
  unfold State.idleDecodes
  dsimp only
  cases (s.trunk t).lcr.accepted with
  | none => exact .refl
  | some code =>
    dsimp only
    split_ifs
    exacts [.refl, seized, .refl, anomaly code, seized, blocked, cleared, .refl, anomaly code, blocked, cleared,
      anomaly code]

theorem State.clearingDecodes_untouched : s.untouched (s.clearingDecodes t) k := by
  unfold State.clearingDecodes
  dsimp only
  cases (s.trunk t).lcr.accepted with
  | none => exact .refl
  | some code =>
    dsimp only
    split_ifs
    · exact .refl
    · exact ((State.unblocks_untouched other).trans (State.callEnds_untouched other _)).trans
        (State.idleDecodes_untouched other)
    · exact (State.callEnds_untouched other _).trans (State.idleDecodes_untouched other)
    · exact .refl
    · exact State.submit_untouched _ _

theorem State.clearsOut_untouched (cause : Option Cause) : s.untouched (s.clearsOut t cause) k :=
  State.quitsWork_untouched other _

end Untouched

end Sys2Proof.Machine
end

section
/-! PROOFS. Relay links: what crosses a link, and what of it commutes with other changes. -/

namespace Sys2Proof.Machine

/-! ### Changes of another trunk's record -/

section Commuting

variable {s : State} {t k : TrunkNo} (other : k ≠ t) {g : Trunk → Trunk}
include other

theorem State.endsIn_mapTrunk (group : ∀ r, (g r).group = r.group) (o : RegOutcome) :
    (s.endsIn t o).mapTrunk k g = (s.mapTrunk k g).endsIn t o := by
  have own : (s.mapTrunk k g).trunk t = s.trunk t := State.mapTrunk_trunk_ne _ _ other.symm
  have queue : ({ s.mapTrunk k g with callQueue := (s.mapTrunk k g).callQueue.filter fun e => e.trunk != t } : State) =
      ({ s with callQueue := s.callQueue.filter fun e => e.trunk != t } : State).mapTrunk k g := rfl
  have comm (x : State) (f : Trunk → Trunk) : (x.mapTrunk t f).mapTrunk k g = (x.mapTrunk k g).mapTrunk t f :=
    State.mapTrunk_comm x other.symm f g
  unfold State.endsIn
  dsimp only
  rw [own, queue]
  cases o with
  | complete => simp only [State.submit_mapTrunk, comm, State.mapTrunk_profiles]
  | reject cause =>
    simp only
    rw [State.mapTrunk_countFor _ _ _ _ _ (group _), State.submit_mapTrunk, comm, comm]
    rfl

theorem State.replies_mapTrunk (v : UnitNo) (b : BackwardSignal) (c : ToneReceiver) :
    (s.replies t v b c).mapTrunk k g = (s.mapTrunk k g).replies t v b c := by
  have own : (s.mapTrunk k g).trunk t = s.trunk t := State.mapTrunk_trunk_ne _ _ other.symm
  unfold State.replies
  rw [own]
  exact State.mapTrunk_comm (s.mapUnit v _) other.symm _ g

theorem State.takesOutcome_mapTrunk (group : ∀ r, (g r).group = r.group) (v : UnitNo) (c : ToneReceiver)
    (o : RegOutcome) : (s.takesOutcome t v c o).mapTrunk k g = (s.mapTrunk k g).takesOutcome t v c o := by
  have own : (s.mapTrunk k g).trunk t = s.trunk t := State.mapTrunk_trunk_ne _ _ other.symm
  have pulse : (s.pulses t v c o).mapTrunk k g = (s.mapTrunk k g).pulses t v c o := by
    unfold State.pulses
    rw [State.endsIn_mapTrunk other group, State.replies_mapTrunk other, own]
    rfl
  have last : (s.respondsLast t v c o).mapTrunk k g = (s.mapTrunk k g).respondsLast t v c o := by
    unfold State.respondsLast
    rw [State.endsIn_mapTrunk other group, State.replies_mapTrunk other, own]
    rfl
  unfold State.takesOutcome
  cases c.phase with
  | held =>
    dsimp only
    split_ifs
    · exact pulse
    · exact last
  | listening => exact pulse
  | responding => exact State.mapTrunk_comm s other.symm _ g
  | pulsing => rfl
  | final => rfl

theorem State.inletTakes_mapTrunk (group : ∀ r, (g r).group = r.group) (o : RegOutcome) :
    (s.inletTakes t o).mapTrunk k g = (s.mapTrunk k g).inletTakes t o := by
  have own : (s.mapTrunk k g).trunk t = s.trunk t := State.mapTrunk_trunk_ne _ _ other.symm
  unfold State.inletTakes
  rw [own]
  cases (s.trunk t).tone with
  | none => exact State.endsIn_mapTrunk other group o
  | some x =>
    cases x with
    | sender c => exact State.endsIn_mapTrunk other group o
    | receiver c =>
      cases (s.trunk t).unit with
      | none => exact State.endsIn_mapTrunk other group o
      | some h =>
        dsimp only
        split_ifs
        · exact State.takesOutcome_mapTrunk other group h.unit c o
        · rfl

theorem State.takesOutcome_untouched (v : UnitNo) (c : ToneReceiver) (o : RegOutcome) :
    s.untouched (s.takesOutcome t v c o) k := by
  have replied (b : BackwardSignal) (d : ToneReceiver) : s.untouched ((s.replies t v b d).endsIn t o) k := by
    have answered : s.untouched (s.replies t v b d) k :=
      State.untouched_of (State.mapTrunk_trunk_ne (s.mapUnit v _) _ other) fun _ he => .inl he
    exact answered.trans (State.endsIn_untouched other o)
  unfold State.takesOutcome
  cases c.phase with
  | held =>
    dsimp only
    split_ifs
    · exact replied _ _
    · exact replied _ _
  | listening => exact replied _ _
  | responding => exact State.mapTrunk_untouched other _
  | pulsing => exact .refl
  | final => exact .refl

theorem State.inletTakes_untouched (o : RegOutcome) : s.untouched (s.inletTakes t o) k := by
  unfold State.inletTakes
  split
  · split_ifs
    · exact State.takesOutcome_untouched other _ _ o
    · exact .refl
  · exact State.endsIn_untouched other o

end Commuting

/-! ### The dissolving of a link -/

/-- R159: a trunk's record without its relay link. -/
def Trunk.unlink (r : Trunk) : Trunk := { r with link := none, linkRecord := none }

section Links

variable {s : State} {inlet outlet : TrunkNo}

theorem State.linkEnds_trunk (ending : LinkEnding) (outcome : Option RegResult) (k : TrunkNo) :
    (s.linkEnds inlet outlet ending outcome).trunk k =
      if k = outlet ∨ k = inlet then (s.trunk k).unlink else s.trunk k := s.dissolve_trunk inlet outlet k ending outcome

theorem State.linkEnds_callQueue (ending : LinkEnding) (outcome : Option RegResult) :
    (s.linkEnds inlet outlet ending outcome).callQueue = s.callQueue := State.submit_callQueue _ _ _

/-- R159, R166: the dissolving of a link, as changes of its two ends. -/
theorem State.linkEnds_eq (ending : LinkEnding) (outcome : Option RegResult) :
    s.linkEnds inlet outlet ending outcome =
      ((s.mapTrunk inlet Trunk.unlink).mapTrunk outlet Trunk.unlink).submit (some inlet)
        (.linkEnd outlet ending outcome (((s.trunk inlet).linkRecord.map (·.relayed)).getD 0)) := rfl

/-- A change of the outlet's record that is apart from its link commutes with the dissolving. -/
theorem State.linkEnds_mapTrunk_outlet (distinct : inlet ≠ outlet) (ending : LinkEnding) (outcome : Option RegResult)
    {g : Trunk → Trunk} (apart : ∀ r : Trunk, g r.unlink = (g r).unlink) :
    (s.linkEnds inlet outlet ending outcome).mapTrunk outlet g =
      (s.mapTrunk outlet g).linkEnds inlet outlet ending outcome := by
  rw [State.linkEnds_eq, State.linkEnds_eq, State.mapTrunk_trunk_ne _ _ distinct, State.submit_mapTrunk,
    State.mapTrunk_mapTrunk, State.mapTrunk_comm s distinct, State.mapTrunk_comm (s.mapTrunk outlet g) distinct,
    State.mapTrunk_mapTrunk, funext apart]

/-- A change of the inlet's record that is apart from its link commutes with the dissolving. -/
theorem State.linkEnds_mapTrunk_inlet (distinct : inlet ≠ outlet) (ending : LinkEnding) (outcome : Option RegResult)
    {g : Trunk → Trunk} (apart : ∀ r : Trunk, g r.unlink = (g r).unlink)
    (record : (g (s.trunk inlet)).linkRecord = (s.trunk inlet).linkRecord) :
    (s.linkEnds inlet outlet ending outcome).mapTrunk inlet g =
      (s.mapTrunk inlet g).linkEnds inlet outlet ending outcome := by
  rw [State.linkEnds_eq, State.linkEnds_eq, State.mapTrunk_trunk, record, State.submit_mapTrunk,
    State.mapTrunk_comm _ distinct.symm, State.mapTrunk_mapTrunk, State.mapTrunk_mapTrunk, funext apart]

/-- A change of the outlet's record that is apart from its link and its group commutes with what the link carries. -/
theorem State.carries_mapTrunk (distinct : inlet ≠ outlet) (o : RegOutcome) {g : Trunk → Trunk}
    (apart : ∀ r : Trunk, g r.unlink = (g r).unlink) (group : ∀ r, (g r).group = r.group) :
    (s.carries inlet outlet o).mapTrunk outlet g = (s.mapTrunk outlet g).carries inlet outlet o := by
  unfold State.carries
  rw [State.inletTakes_mapTrunk distinct.symm group, State.linkEnds_mapTrunk_outlet distinct _ _ apart]

/-- What a link that carries an outcome leaves of an outlet that waits for no unit. -/
theorem State.carries_outlet (distinct : inlet ≠ outlet) (o : RegOutcome) (waits : ∀ e ∈ s.callQueue, e.trunk ≠ outlet) :
    (s.carries inlet outlet o).trunk outlet = (s.trunk outlet).unlink ∧
      ∀ e ∈ (s.carries inlet outlet o).callQueue, e.trunk ≠ outlet := by
  unfold State.carries
  have left (outcome : Option RegResult) : ∀ e ∈ (s.linkEnds inlet outlet .outlet outcome).callQueue, e.trunk ≠ outlet := by
    rw [State.linkEnds_callQueue]
    exact waits
  obtain ⟨same, quiet⟩ := State.inletTakes_untouched distinct.symm o (left _)
  exact ⟨same.trans (by rw [State.linkEnds_trunk, if_pos (.inl rfl)]), quiet⟩

end Links

/-! ### Linked trunks -/

/-- R160, R161: the two ends of a relay link whose inlet is in its register phase. -/
structure State.linked (s : State) (inlet outlet : TrunkNo) : Prop where
  distinct : inlet ≠ outlet
  inletLink : (s.trunk inlet).link = some { peer := outlet, part := .inlet }
  outletLink : (s.trunk outlet).link = some { peer := inlet, part := .outlet }
  selecting : (s.trunk inlet).state = .inSelecting

/-- R121: a trunk with a receiver context holds a unit. -/
def Trunk.holdsReceiver (r : Trunk) : Prop := ∀ c, r.tone = some (.receiver c) → r.unit.isSome = true

section Granting

variable {s : State} {k : TrunkNo}

/-- R89: a trunk that is granted a unit holds it. -/
theorem State.granted_unit (v : UnitNo) (role : UnitRole) :
    ((s.granted v k role).trunk k).unit = some { unit := v, role := role } := by
  cases role with
  | sender =>
    simp only [State.granted, State.sendsNext, State.sends]
    split_ifs <;> simp
  | receiver => simp [State.granted]

theorem State.granted_holds (v : UnitNo) (t : TrunkNo) (role : UnitRole) (held : (s.trunk k).holdsReceiver) :
    ((s.granted v t role).trunk k).holdsReceiver := by
  intro c context
  by_cases own : t = k
  · subst own
    rw [State.granted_unit]
    rfl
  · rw [State.granted_trunk _ own] at context ⊢
    exact held c context

theorem State.frees_holds (h : Option HeldUnit) (held : (s.trunk k).holdsReceiver) :
    ((s.frees h).trunk k).holdsReceiver := by
  cases h with
  | none => exact held
  | some h =>
    rw [State.frees]
    rcases (s.mapUnit h.unit fun _ => { status := .free }).handsOn_cases h.unit with
      ⟨e, rest, _, whole⟩ | ⟨r, rest, _, _, _, whole⟩ | ⟨_, _, whole⟩
    · rw [whole]
      exact State.granted_holds _ _ _ held
    · rw [whole]
      exact held
    · rw [whole]
      exact held

end Granting

section Linked

variable {s : State} {inlet outlet : TrunkNo} (link : s.linked inlet outlet)
include link

/-- R164: an outlet hands its outcome to the inlet. -/
theorem State.linked.carries (held : (s.trunk inlet).holdsReceiver) (o : RegOutcome) :
    s.carryBack outlet o = s.carries inlet outlet o.carried :=
  State.carryBack_eq s inlet outlet o link.distinct link.outletLink link.selecting held

/-- The other end of a link, and the link, stand while the outlet's register work ends. -/
theorem State.linked.quitsWork : (s.quitsWork outlet id).linked inlet outlet := by
  obtain ⟨distinct, hi, ho, selecting⟩ := link
  have other := (State.quitsWork_worksOff (s := s) (t := outlet) (f := id)
    fun _ => ⟨rfl, rfl, rfl, rfl, rfl, rfl⟩).others inlet distinct
  refine ⟨distinct, ?_, ?_, ?_⟩
  · rw [other]
    exact hi
  · rw [State.quitsWork_record]
    exact ho
  · rw [other]
    exact selecting

theorem State.linked.quitsWork_holds (held : (s.trunk inlet).holdsReceiver) :
    ((s.quitsWork outlet id).trunk inlet).holdsReceiver := by
  refine State.frees_holds _ ?_
  rw [State.mapTrunk_trunk_ne _ _ link.distinct]
  exact held

/-- R40, R164: the register work of an outlet ends, and its link carries an outcome. -/
theorem State.linked.endRegisterWork (held : (s.trunk inlet).holdsReceiver)
    (hq : (s.trunk outlet).unit = none ∨ ∀ e ∈ s.callQueue, e.trunk ≠ outlet) (o : RegOutcome) :
    s.endRegisterWork outlet o = (s.quitsWork outlet id).carries inlet outlet o.carried := by
  have unlinked := (State.carries_outlet (s := s.quitsWork outlet id) link.distinct o.carried State.quitsWork_waits).1
  rw [State.endRegisterWork, s.stopRegister_quits outlet hq,
    link.quitsWork.carries (link.quitsWork_holds held) o, State.inletGone_unlinked _ _ (by rw [unlinked]; rfl)]

/-- R40, R164: what the outlet keeps when its register work has ended and its link has carried an outcome. -/
theorem State.linked.carried_outlet (o : RegOutcome) :
    ((s.quitsWork outlet id).carries inlet outlet o).trunk outlet = (s.trunk outlet).offWork.unlink ∧
      (∀ e ∈ ((s.quitsWork outlet id).carries inlet outlet o).callQueue, e.trunk ≠ outlet) := by
  obtain ⟨same, quiet⟩ := State.carries_outlet (s := s.quitsWork outlet id) link.distinct o State.quitsWork_waits
  rw [State.quitsWork_record] at same
  exact ⟨same, quiet⟩

end Linked

end Sys2Proof.Machine
end

section
/-! PROOFS. The endings of a relay link at its outlet. -/

namespace Sys2Proof.Machine

/-! ### Register work that has ended already -/

section Done

variable {s : State} {t : TrunkNo}

/-- A change that leaves the trunk's record as it is changes nothing. -/
theorem State.mapTrunk_same {f : Trunk → Trunk} (h : f (s.trunk t) = s.trunk t) : s.mapTrunk t f = s := by
  refine State.ext_parts rfl rfl rfl rfl (fun k => ?_) (fun _ => rfl) rfl rfl rfl rfl rfl rfl rfl rfl rfl rfl
  rw [State.mapTrunk_trunk_at]
  split_ifs with own
  · rw [h, own]
  · rfl

variable (off : (s.trunk t).offWork = s.trunk t) (waits : ∀ e ∈ s.callQueue, e.trunk ≠ t)
include off waits

/-- R40: nothing is left of register work that has ended. -/
theorem State.quitsWork_done : s.quitsWork t id = s := by
  have unit : (s.trunk t).unit = none := by
    rw [← off]
    rfl
  rw [State.quitsWork_absent _ waits, State.endsWork, unit]
  exact State.mapTrunk_same off

/-- R54: clearing forward after the end of register work. -/
theorem State.clearOut_done : s.clearOut t = (s.clearsOut t (s.trunk t).cause).clearingDecodes t := by
  have ended := s.clearOut_eq t (.inr waits)
  rwa [s.stopRegister_quits t (.inr waits), State.quitsWork_done off waits] at ended

end Done

/-! ### What the outlet's operations keep -/

/-- R164: COMPLETE and UNOBTAINABLE are carried as they are, and every other rejection as CONGESTION. -/
theorem RegOutcome.carried_eq (o : RegOutcome) :
    o.carried = if o = .complete ∨ o = .reject .unobtainable then o else .reject .congestion := by
  rcases o with _ | cause
  · rfl
  · cases cause <;> rfl

section Outlet

variable {s : State} {inlet outlet : TrunkNo}

theorem State.endsOut_other {k : TrunkNo} (other : k ≠ outlet) (o : RegOutcome) :
    (s.endsOut outlet o).trunk k = s.trunk k := by
  cases o <;> simp only [State.endsOut, State.countFor_trunk, State.submit_trunk, State.mapTrunk_trunk_ne _ _ other]

theorem State.linked.endsOut (link : s.linked inlet outlet) (o : RegOutcome) :
    (s.endsOut outlet o).linked inlet outlet := by
  obtain ⟨distinct, inletLink, outletLink, selecting⟩ := link
  have other := State.endsOut_other (s := s) distinct o
  refine ⟨distinct, ?_, ?_, ?_⟩
  · rw [other, inletLink]
  · rw [State.endsOut_link, outletLink]
  · rw [other, selecting]

variable (link : s.linked inlet outlet) (held : (s.trunk inlet).holdsReceiver)
include link held

/-- R46, R164: an outcome of the outlet's register phase. -/
theorem State.linked.outOutcome (state : (s.trunk outlet).state = .outSelecting) (o : RegOutcome) :
    s.outOutcome outlet o = (s.endsOut outlet o).carries inlet outlet o.carried := by
  have still : ((s.endsOut outlet o).trunk inlet).holdsReceiver := by rwa [State.endsOut_other link.distinct]
  rw [State.outOutcome, if_neg (by simp [state]), State.outOutcomeAlone_eq]
  exact (link.endsOut o).carries still o

/-- R51, R75, R163: a number that has been sent to its end completes at the outlet and at the inlet. -/
theorem State.linked.pauseEnded {c : DecadicSender} (state : (s.trunk outlet).state = .outSelecting)
    (sent : (s.trunk outlet).send.digits[(s.trunk outlet).send.pos - 1]? = none)
    (last : (s.trunk outlet).send.endFlag = true) :
    s.pauseEnded outlet c = (s.endsOut outlet .complete).carries inlet outlet .complete := by
  unfold State.pauseEnded SendStore.current
  rw [sent]
  dsimp only
  rw [if_pos last]
  exact link.outOutcome held state .complete

/-- R159: what an outlet that has carried COMPLETE or CONGESTION leaves of the profiles and the time base. -/
theorem State.linked.carried_keeps {o : RegOutcome} (as_is : o.carried = o) :
    ((s.quitsWork outlet id).carries inlet outlet o).profiles = s.profiles ∧
      ((s.quitsWork outlet id).carries inlet outlet o).tmb = s.tmb := by
  have carried := link.quitsWork.carries (link.quitsWork_holds held) o
  have inner := (s.quitsWork outlet id).carryBack_inner outlet o
  rw [carried, as_is] at inner
  exact ⟨inner.profiles.trans (s.quitsWork_keeps outlet id).1, inner.tmb.trans (s.quitsWork_keeps outlet id).2⟩

/-- The profile that the outlet names when its link has carried an outcome. -/
theorem State.linked.carried_names {o : RegOutcome} {q : Profile} (as_is : o.carried = o)
    (hq : q = s.profiles.get (s.trunk outlet).profile) :
    q = ((s.quitsWork outlet id).carries inlet outlet o).profiles.get
      (((s.quitsWork outlet id).carries inlet outlet o).trunk outlet).profile := by
  rw [(link.carried_keeps held as_is).1, (link.carried_outlet o).1]
  exact hq

end Outlet

/-! ### Signals decoded at the outlet -/

section Signals

variable {s x : State} {inlet outlet : TrunkNo} {q : Profile} (link : s.linked inlet outlet)
  (held : (s.trunk inlet).holdsReceiver) (hq : q = s.profiles.get (s.trunk outlet).profile)
  (waits : (s.trunk outlet).unit = none ∨ ∀ e ∈ s.callQueue, e.trunk ≠ outlet)
include link held hq waits

/-- R49, R164: an early answer at an outlet. -/
theorem State.linked.earlyAnswer (hx : x = (s.quitsWork outlet id).carries inlet outlet .complete)
    (state : (s.trunk outlet).state = .outSelecting) (code : (s.trunk outlet).lcr.accepted = some q.codes.bAnswer)
    (distinct : q.codes.bAnswer ≠ q.codes.bAck) :
    s.decodeLine outlet = ((x.mapTrunk outlet fun r => { r with
        state := .outAnswered, sentCode := q.codes.fSeize, timer := none
        record := r.record.map fun k => { k with
          answerTime := some (k.answerTime.getD s.tmb.counter), answerCount := min 255 (k.answerCount + 1) } }).countFor
      outlet fun c => { c with outAnswered := min 4294967295 (c.outAnswered + 1) }).submit (some outlet)
        (.answer (s.trunk outlet).callRef) := by
  rw [State.decodeLine_called (before := [(.bAck, .nothing)]) hq code (by rw [state]; rfl)
    (by simpa [SendCodes.of] using distinct.symm) rfl (by simp) (by simp [state]) (by rw [state]; rfl)]
  change (s.endRegisterWork outlet .complete).firstAnswer outlet = _
  rw [link.endRegisterWork held waits, State.firstAnswer_eq (link.carried_names held rfl hq),
    (link.carried_keeps held rfl).2, (link.carried_outlet _).1, hx]
  rfl

/-- R47, R164: a clear-back before answer at an outlet. -/
theorem State.linked.clearBack (hx : x = (s.quitsWork outlet id).carries inlet outlet (.reject .congestion))
    (state : (s.trunk outlet).state = .outSelecting) (code : (s.trunk outlet).lcr.accepted = some q.codes.bClearback)
    (ack : q.codes.bClearback ≠ q.codes.bAck) (answer : q.codes.bClearback ≠ q.codes.bAnswer) :
    s.decodeLine outlet = ((x.mapTrunk outlet fun r => { r with
        state := .outRejected, sentCode := q.codes.fSeize, timer := none
        cause := some (r.cause.getD .congestion) }).submit (some outlet)
      (.registerEnd (s.trunk outlet).callRef .congestion (some ((s.trunk outlet).cause.getD .congestion)))).countFor outlet
        fun c => { c with failures := min 4294967295 (c.failures + 1) } := by
  rw [State.decodeLine_called (before := [(.bAck, .nothing), (.bAnswer, .earlyAnswer)]) (a := .clearBackBeforeAnswer) hq
    code (by rw [state]; rfl) (by simpa [SendCodes.of] using ⟨ack.symm, answer.symm⟩) rfl (by simp) (by simp [state])
    (by rw [state]; rfl)]
  change s.clearBackBeforeAnswer outlet = _
  rw [State.clearBackBeforeAnswer_eq (link.endRegisterWork held waits _)
    (link.carried_names held rfl hq), (link.carried_outlet _).1, hx]
  rfl

end Signals

/-! ### Endings from the host and by the ack timer -/

/-- R41, R42: a trunk fails with any cause set before. -/
theorem State.fails_recaused {s : State} {t : TrunkNo} {cause : Option Cause} {recordCause failure : Cause} :
    (s.mapTrunk t fun r => { r with cause := cause }).fails t recordCause failure = s.fails t recordCause failure := by
  have same : (s.mapTrunk t fun r => { r with cause := cause }).failing t recordCause failure =
      s.failing t recordCause failure := by
    rw [State.failing, State.mapTrunk_quitsWork (h := Trunk.failedBy s.profiles failure) rfl rfl, State.mapTrunk_trunk,
      State.failing]
  rw [State.fails_eq, same, State.fails_eq]

section Endings

variable {s x : State} {inlet outlet : TrunkNo} (link : s.linked inlet outlet)
  (held : (s.trunk inlet).holdsReceiver)
  (waits : (s.trunk outlet).unit = none ∨ ∀ e ∈ s.callQueue, e.trunk ≠ outlet)
  (hx : x = (s.quitsWork outlet id).carries inlet outlet (.reject .congestion))
include link held waits hx

/-- R54, R164: RELEASE of an outlet. -/
theorem State.linked.releaseCall :
    s.releaseCall outlet = (x.clearsOut outlet (s.trunk outlet).cause).clearingDecodes outlet := by
  obtain ⟨record, quiet⟩ := link.carried_outlet (.reject .congestion)
  have ended : s.endRegisterWork outlet (.reject .congestion) = x :=
    (link.endRegisterWork held waits _).trans hx.symm
  rw [← hx] at record quiet
  rw [State.releaseCall, ended, State.clearOut_done (by rw [record]; rfl) quiet, record]
  rfl

/-- R71, R164: RESET-TRUNK of an outlet. -/
theorem State.linked.resetTrunk (inCall : (s.trunk outlet).state.inCall = true) :
    s.resetTrunk outlet = (x.callEnds outlet .reset).idleDecodes outlet := by
  obtain ⟨-, quiet⟩ := link.carried_outlet (.reject .congestion)
  have ended : s.endRegisterWork outlet (.reject .congestion) = x :=
    (link.endRegisterWork held waits _).trans hx.symm
  rw [← hx] at quiet
  unfold State.resetTrunk
  dsimp only
  rw [if_pos inCall, ended, State.endCall_eq _ _ _ (.inr quiet)]

/-- R45, R164: the ack timer's expiry at an outlet. -/
theorem State.linked.ackTimedOut : s.ackTimedOut outlet = x.fails outlet .ackTimeout .ackTimeout := by
  obtain ⟨record, quiet⟩ := link.carried_outlet (.reject .congestion)
  rw [← hx] at record quiet
  have caused : (s.mapTrunk outlet fun r => { r with cause := some .ackTimeout }).linked inlet outlet := by
    obtain ⟨distinct, inletLink, outletLink, selecting⟩ := link
    refine ⟨distinct, ?_, ?_, ?_⟩
    · rwa [State.mapTrunk_trunk_ne _ _ distinct]
    · rwa [State.mapTrunk_trunk]
    · rwa [State.mapTrunk_trunk_ne _ _ distinct]
  have still : ((s.mapTrunk outlet fun r => { r with cause := some .ackTimeout }).trunk inlet).holdsReceiver := by
    rwa [State.mapTrunk_trunk_ne _ _ link.distinct]
  have ended : (s.mapTrunk outlet fun r => { r with cause := some .ackTimeout }).endRegisterWork outlet
      (.reject .congestion) = x.mapTrunk outlet fun r => { r with cause := some .ackTimeout } := by
    have moved := State.carries_mapTrunk (s := s.quitsWork outlet id) link.distinct (.reject .congestion)
      (g := fun r => { r with cause := some .ackTimeout }) (fun _ => rfl) (fun _ => rfl)
    rw [State.linked.endRegisterWork caused still (by rw [State.mapTrunk_trunk]; exact waits), hx, moved,
      State.quitsWork_mapTrunk]
    exact congrArg (State.carries · _ _ _) (State.mapTrunk_quitsWork rfl rfl)
  have ref : (s.trunk outlet).callRef =
      ((x.mapTrunk outlet fun r => { r with cause := some .ackTimeout }).trunk outlet).callRef := by
    rw [State.mapTrunk_trunk, record]
    rfl
  unfold State.ackTimedOut
  dsimp only
  rw [ended, ref, State.enterFailed_eq (x.mapTrunk outlet _) _ _ _ (by decide) (.inr quiet), State.fails_recaused]

end Endings

/-- R64, R164: an outlet yields to a far seizure. -/
theorem State.linked.yields {s : State} {inlet outlet : TrunkNo} {q : Profile} (link : s.linked inlet outlet)
    (held : (s.trunk inlet).holdsReceiver) (hq : q = s.profiles.get (s.trunk outlet).profile)
    (state : (s.trunk outlet).state = .outSeizing) (role : (s.trunk outlet).role = .bothWay)
    (glare : (s.trunk outlet).glare = .yield) (code : (s.trunk outlet).lcr.accepted = some q.codes.fSeize)
    (distinct : q.codes.fSeize ≠ q.codes.bAck) :
    s.decodeLine outlet = (((s.submit (some outlet) (.glare (s.trunk outlet).callRef)).mapTrunk outlet fun r => { r with
      timer := none, record := none, send := { digits := [], endFlag := false, pos := 1 } }).carries inlet outlet
        (.reject .congestion)).incomingSeizure outlet := by
  have yielded : ((s.submit (some outlet) (.glare (s.trunk outlet).callRef)).mapTrunk outlet fun r => { r with
      timer := none, record := none, send := { digits := [], endFlag := false, pos := 1 } }).linked inlet outlet := by
    obtain ⟨distinct, inletLink, outletLink, selecting⟩ := link
    refine ⟨distinct, ?_, ?_, ?_⟩
    · rwa [State.mapTrunk_trunk_ne _ _ distinct, State.submit_trunk]
    · rwa [State.mapTrunk_trunk, State.submit_trunk]
    · rwa [State.mapTrunk_trunk_ne _ _ distinct, State.submit_trunk]
  have still : (((s.submit (some outlet) (.glare (s.trunk outlet).callRef)).mapTrunk outlet fun r => { r with
      timer := none, record := none, send := { digits := [], endFlag := false, pos := 1 } }).trunk inlet).holdsReceiver := by
    rwa [State.mapTrunk_trunk_ne _ _ link.distinct, State.submit_trunk]
  rw [State.decodeLine_called (before := [(.bAck, .acknowledgement)]) (a := .dualSeizure) hq code
    (by rw [state, role]; rfl) (by simpa [SendCodes.of] using distinct.symm) rfl (by simp) (by simp [state])
    (by rw [state]; rfl)]
  change s.dualSeizure outlet = _
  unfold State.dualSeizure State.dropTimer
  rw [glare]
  dsimp only
  rw [State.mapTrunk_mapTrunk, yielded.carries still]
  rfl

end Sys2Proof.Machine
end

section
/-! PROOFS. The endings of a relay link at its inlet. -/

namespace Sys2Proof.Machine

/-! ### Outcomes and ends of work at one trunk -/

section One

variable {s : State} {t k : TrunkNo}

theorem State.endsIn_callQueue (o : RegOutcome) :
    (s.endsIn t o).callQueue = s.callQueue.filter fun e => e.trunk != t := by
  cases o <;> simp only [State.endsIn, State.countFor_callQueue, State.submit_callQueue, State.mapTrunk_callQueue]

theorem State.endsIn_link (o : RegOutcome) : ((s.endsIn t o).trunk t).link = (s.trunk t).link := by
  cases o <;>
  · simp only [State.endsIn, State.countFor_trunk, State.submit_trunk, State.mapTrunk_trunk]
    rfl

theorem State.endsIn_other (other : k ≠ t) (o : RegOutcome) : (s.endsIn t o).trunk k = s.trunk k := by
  cases o <;>
  · simp only [State.endsIn, State.countFor_trunk, State.submit_trunk, State.mapTrunk_trunk_ne _ _ other]
    rfl

/-- R84: a change of a receiving context that its clear watch does not show leaves nothing of itself in an outcome. -/
theorem State.endsIn_rewatched {f : Trunk → Trunk} (o : RegOutcome)
    (kept : f (s.trunk t) = { s.trunk t with decadic := (f (s.trunk t)).decadic })
    (watch : (f (s.trunk t)).decadic.map DecadicContext.toWatch = (s.trunk t).decadic.map DecadicContext.toWatch) :
    (s.mapTrunk t f).endsIn t o = s.endsIn t o := by
  have watched : (((s.mapTrunk t f).leaveQueue t).mapTrunk t fun r => { r with
        lcr := { r.lcr with mode := .line }, decadic := r.decadic.map DecadicContext.toWatch }) =
      (s.leaveQueue t).mapTrunk t fun r => { r with
        lcr := { r.lcr with mode := .line }, decadic := r.decadic.map DecadicContext.toWatch } := by
    refine (State.mapTrunk_mapTrunk (s.leaveQueue t) t f _).trans (State.mapTrunk_congr _ _ ?_)
    change ({ f (s.trunk t) with
      lcr := { (f (s.trunk t)).lcr with mode := .line }
      decadic := (f (s.trunk t)).decadic.map DecadicContext.toWatch } : Trunk) = _
    rw [watch, kept]
    rfl
  have own : (s.mapTrunk t f).trunk t = { s.trunk t with decadic := (f (s.trunk t)).decadic } := by
    rw [State.mapTrunk_trunk, kept]
  unfold State.endsIn
  rw [own]
  cases o with
  | complete => exact congrArg (State.submit · _ _) (congrArg (State.mapTrunk · t _) watched)
  | reject cause =>
    exact congrArg (State.countFor · t _) (congrArg (State.submit · _ _) (congrArg (State.mapTrunk · t _) watched))

theorem State.endsIn_dropsWait (o : RegOutcome) :
    (s.mapReceiver t fun c => { c with wait := none }).endsIn t o = s.endsIn t o := by
  refine State.endsIn_rewatched o rfl ?_
  rw [Option.map_map]
  refine Option.map_congr fun d _ => ?_
  cases d <;> rfl

/-- R92: where a trunk held no unit, the end of its register work leaves every other trunk's record. -/
theorem State.quitsWork_other (f : Trunk → Trunk) (unit : (s.trunk t).unit = none) (other : k ≠ t) :
    (s.quitsWork t f).trunk k = s.trunk k := by
  have held : ((s.leaveQueue t).trunk t).unit = none := unit
  change ((State.mapTrunk (s.leaveQueue t) t _).frees ((s.leaveQueue t).trunk t).unit).trunk k = _
  rw [held, State.frees, State.mapTrunk_trunk_ne _ _ other]
  rfl

theorem State.quitsWork_callQueue (f : Trunk → Trunk) : ∀ e ∈ (s.quitsWork t f).callQueue, e ∈ s.callQueue := by
  intro e he
  exact List.mem_of_mem_filter (State.frees_callQueue ((s.leaveQueue t).mapTrunk t _) _ e he)

end One

/-! ### The inlet's side -/

section Inlet

variable {s x : State} {inlet outlet : TrunkNo} (link : s.linked inlet outlet)
include link

/-- R165: an inlet that leaves its link. -/
theorem State.linked.inletGone (waits : (s.trunk outlet).unit = none ∨ ∀ e ∈ s.callQueue, e.trunk ≠ outlet) :
    s.inletGone inlet = s.inletLeaves inlet outlet := s.inletGone_eq inlet outlet link.distinct link.inletLink waits

/-- R58, R165: a rejection at an inlet. -/
theorem State.linked.rejectIn (waits : (s.trunk outlet).unit = none ∨ ∀ e ∈ s.callQueue, e.trunk ≠ outlet)
    (cause : Cause) : s.rejectIn inlet cause = (s.endsIn inlet (.reject cause)).inletLeaves inlet outlet := by
  rw [State.rejectIn, State.inOutcome_eq _ _ _ link.selecting]
  refine State.inletGone_eq _ inlet outlet link.distinct ?_ ?_
  · rw [State.endsIn_link, link.inletLink]
  · rw [State.endsIn_other link.distinct.symm, State.endsIn_callQueue]
    exact waits.imp id fun none_waits e he => none_waits e (List.mem_of_mem_filter he)

/-- What the dissolving of a link from its inlet's side leaves of an inlet that waits for no unit. -/
theorem State.linked.leaves_inlet (waits : ∀ e ∈ s.callQueue, e.trunk ≠ inlet) :
    (s.inletLeaves inlet outlet).trunk inlet = (s.trunk inlet).unlink ∧
      ∀ e ∈ (s.inletLeaves inlet outlet).callQueue, e.trunk ≠ inlet := by
  have left : ∀ e ∈ (s.linkEnds inlet outlet .inlet none).callQueue, e.trunk ≠ inlet := by
    rw [State.linkEnds_callQueue]
    exact waits
  obtain ⟨same, quiet⟩ := ((State.clearsOut_untouched link.distinct _).trans
    (State.clearingDecodes_untouched link.distinct)) left
  exact ⟨same.trans (by rw [State.linkEnds_trunk, if_pos (.inr rfl)]), quiet⟩

section Works

variable (outletWaits : (∀ e ∈ s.callQueue, e.trunk ≠ outlet) ∨ ((s.trunk inlet).unit = none ∧ (s.trunk outlet).unit = none))
  (inletWaits : (s.trunk inlet).unit = none ∨ ∀ e ∈ s.callQueue, e.trunk ≠ inlet)
  (hx : x = (s.quitsWork inlet id).inletLeaves inlet outlet)
include outletWaits

omit link in
/-- A unit handed on at the end of the inlet's register work does not reach the outlet. -/
theorem State.outlet_waits : (s.trunk outlet).unit = none ∨ ∀ e ∈ s.callQueue, e.trunk ≠ outlet :=
  outletWaits.symm.imp And.right id

/-- R40, R165: the register work of an inlet has ended, and it has left its link. -/
theorem State.linked.quits_inletGone :
    (s.quitsWork inlet id).inletGone inlet = (s.quitsWork inlet id).inletLeaves inlet outlet := by
  refine State.inletGone_eq _ inlet outlet link.distinct ?_ ?_
  · rw [State.quitsWork_record]
    exact link.inletLink
  · rcases outletWaits with none_waits | ⟨inletUnit, outletUnit⟩
    · exact .inr fun e he => none_waits e (State.quitsWork_callQueue id e he)
    · exact .inl (by rw [State.quitsWork_other id inletUnit link.distinct.symm, outletUnit])

include inletWaits hx

theorem State.linked.endRegisterWork_inlet (o : RegOutcome) : s.endRegisterWork inlet o = x := by
  have inletLink : ((s.quitsWork inlet id).trunk inlet).link = some { peer := outlet, part := .inlet } := by
    rw [State.quitsWork_record]
    exact link.inletLink
  have no_outlet : (s.quitsWork inlet id).carryBack inlet o = s.quitsWork inlet id := by
    simp only [State.carryBack, Trunk.inlet, inletLink]
  rw [State.endRegisterWork, s.stopRegister_quits inlet inletWaits, no_outlet, link.quits_inletGone outletWaits, hx]

omit inletWaits in
theorem State.linked.left_inlet : x.trunk inlet = (s.trunk inlet).offWork.unlink ∧ x.profiles = s.profiles ∧
    ∀ e ∈ x.callQueue, e.trunk ≠ inlet := by
  have inner := (s.quitsWork inlet id).inletGone_inner inlet
  have left : ∀ e ∈ ((s.quitsWork inlet id).linkEnds inlet outlet .inlet none).callQueue, e.trunk ≠ inlet := by
    rw [State.linkEnds_callQueue]
    exact State.quitsWork_waits
  obtain ⟨same, quiet⟩ := ((State.clearsOut_untouched link.distinct _).trans
    (State.clearingDecodes_untouched link.distinct)) left
  rw [link.quits_inletGone outletWaits] at inner
  rw [hx]
  refine ⟨same.trans ?_, inner.profiles.trans (s.quitsWork_keeps inlet id).1, quiet⟩
  rw [State.linkEnds_trunk, if_pos (.inr rfl), State.quitsWork_record]
  rfl

/-- R61, R165: a clear-forward at an inlet. -/
theorem State.linked.clearForward {p : Profile} (hp : p = s.profiles.get (s.trunk inlet).profile) :
    s.clearForward inlet = (x.mapTrunk inlet fun r => { r with
        state := .inGuard, sentCode := p.codes.bGuard
        timer := some { kind := .guard, left := p.guardTimer } }).submit (some inlet)
          (.clearForward (s.trunk inlet).callRef) := by
  obtain ⟨record, profiles, -⟩ := link.left_inlet outletWaits hx
  rw [State.clearForward_eq (p := p) (link.endRegisterWork_inlet outletWaits inletWaits hx _)
    (by rw [profiles, record]; exact hp), record]
  refine congrArg (State.submit · _ _) (State.mapTrunk_congr _ _ ?_)
  rw [record]
  rfl

/-- R71, R165: RESET-TRUNK of an inlet. -/
theorem State.linked.resetTrunk_inlet : s.resetTrunk inlet = (x.callEnds inlet .reset).idleDecodes inlet := by
  obtain ⟨-, -, quiet⟩ := link.left_inlet outletWaits hx
  have inCall : (s.trunk inlet).state.inCall = true := by rw [link.selecting]; rfl
  unfold State.resetTrunk
  dsimp only
  rw [if_pos inCall, link.endRegisterWork_inlet outletWaits inletWaits hx, State.endCall_eq _ _ _ (.inr quiet)]

end Works

/-- R84, R165: the first-digit wait of a decadic inlet. -/
theorem State.linked.digitWaitEnded (waits : (s.trunk outlet).unit = none ∨ ∀ e ∈ s.callQueue, e.trunk ≠ outlet) :
    s.digitWaitEnded inlet .firstDigit = (s.endsIn inlet (.reject .digitTimeout)).inletLeaves inlet outlet := by
  have other : (s.mapReceiver inlet fun c => { c with wait := none }).trunk outlet = s.trunk outlet := by
    rw [State.mapReceiver, State.mapTrunk_trunk_ne _ _ link.distinct.symm]
  have dropped : (s.mapReceiver inlet fun c => { c with wait := none }).linked inlet outlet := by
    obtain ⟨distinct, inletLink, outletLink, selecting⟩ := link
    refine ⟨distinct, ?_, ?_, ?_⟩
    · rwa [State.mapReceiver_link]
    · rwa [other]
    · rwa [State.mapReceiver, State.mapTrunk_trunk]
  unfold State.digitWaitEnded
  dsimp only
  rw [if_neg (by simp), dropped.rejectIn (by rw [other]; exact waits), State.endsIn_dropsWait]

/-- R151, R165: the host rejects the number of an inlet that has no tone context. -/
theorem State.linked.acceptNumber (waits : (s.trunk outlet).unit = none ∨ ∀ e ∈ s.callQueue, e.trunk ≠ outlet)
    (tone : (s.trunk inlet).tone = none) (cause : Cause) :
    s.acceptNumber inlet (.reject cause) = (s.endsIn inlet (.reject cause)).inletLeaves inlet outlet := by
  have peer : (s.trunk inlet).outlet = some outlet := by rw [Trunk.outlet, link.inletLink]
  simp only [State.acceptNumber, peer, State.rejectLinkedInlet, tone, link.rejectIn waits]

end Inlet

/-- R151: an ACCEPT-DIGITS that is taken. -/
theorem exec_acceptDigits {s : State} {t : TrunkNo} {code : Byte} {o : RegOutcome}
    (equipped : (s.trunk t).role ≠ .unequipped) (state : (s.trunk t).state = .inSelecting)
    (unfinished : ((s.trunk t).linkRecord.map (·.inletComplete)).getD false = false)
    (free : (s.trunk t).outcomePending = false)
    (listed : (code, o) ∈ [((0 : Byte), RegOutcome.complete), (1, .reject .congestion), (2, .reject .unobtainable)]) :
    exec (.acceptDigits [byte t.val, code]) s = .next ((s.acceptNumber t o).sendReply 0x12 .ok []) := by
  change Host.Outcome.next (s.takeAcceptDigits [byte t.val, code]) = _
  rw [State.takeAcceptDigits, State.judgeAcceptDigits_eq equipped state unfinished listed, if_neg (by simp [free])]
  rfl

/-- R151: the rejections that the host can give. -/
theorem rejection_listed {code : Byte} {cause : Cause}
    (h : (code, cause) ∈ [((1 : Byte), Cause.congestion), (2, .unobtainable)]) :
    (code, RegOutcome.reject cause) ∈
      [((0 : Byte), RegOutcome.complete), (1, .reject .congestion), (2, .reject .unobtainable)] := by
  simp only [List.mem_cons, Prod.mk.injEq, List.not_mem_nil, or_false] at h
  rcases h with ⟨rfl, rfl⟩ | ⟨rfl, rfl⟩ <;> simp

end Sys2Proof.Machine
end

section
/-! PROOFS. The digits that a relay inlet stores, relays and loses. -/

namespace Sys2Proof.Machine

/-! ### A digit that ends -/

/-- R81, R132: a digit appended to the receive store and entered in the call record. -/
def Trunk.storesDigit (d : Digit) (r : Trunk) : Trunk := { r with
  received := { r.received with digits := r.received.digits ++ [d] }
  record := r.record.map fun k => { k with digits := k.digits ++ [d] } }

/-- R78: a trunk with a given receiving context. -/
def Trunk.receives (c : DecadicReceiver) (r : Trunk) : Trunk := { r with decadic := some (.receiving c) }

/-- R81: a receiving context when its digit has ended. -/
def DecadicReceiver.digitEnded (c : DecadicReceiver) : DecadicReceiver :=
  { c with phase := .between, pulses := 0, digitEnd := none }

theorem Trunk.storesDigit_beyond {r : Trunk} {l : LinkRecord} {d : Digit} :
    l.delete < (Trunk.storesDigit d r).received.digits.length ↔ l.delete ≤ r.received.digits.length := by
  simp [Trunk.storesDigit]

theorem pulseDigit_breaks (d : Digit) : pulseDigit (if d.val = 0 then 10 else d.val) = some d := by
  revert d
  decide

section Ended

variable {s : State} {t : TrunkNo} {c : DecadicReceiver} {d : Digit}

theorem State.storeDigit_eq : s.storeDigit t d = s.mapTrunk t (Trunk.storesDigit d) := by
  rw [State.storeDigit, State.recordDigit, State.mapRecord, State.mapTrunk_mapTrunk]
  rfl

theorem State.mapReceiver_at (f : DecadicReceiver → DecadicReceiver)
    (engine : (s.trunk t).decadic = some (.receiving c)) :
    s.mapReceiver t f = s.mapTrunk t (Trunk.receives (f c)) := by
  refine State.mapTrunk_congr _ _ ?_
  rw [engine]
  rfl

/-- R81: the digit-end timer's expiry. -/
theorem exec_digitEndTimerExpiry (hold : s.hwi.alignment ≠ .hold) (engine : (s.trunk t).decadic = some (.receiving c))
    (counting : c.phase = .counting) (due : c.digitEnd = some 0) (pulses : c.pulses = if d.val = 0 then 10 else d.val) :
    exec (.digitEndTimerExpiry t) s = .next (s.giveDigit t d) := by
  change execDigitEndTimerExpiry t s = _
  rw [execDigitEndTimerExpiry, State.receiverRunning_some hold engine]
  simp only [timerDue, due, beq_self_eq_true, if_true, State.digitEndExpired, counting, State.endDigit, pulses,
    pulseDigit_breaks]

/-- R81: what a digit that the receive store has room for does, by the state of the send store beyond the link. -/
theorem State.giveDigit_stored {u : State} (engine : (s.trunk t).decadic = some (.receiving c))
    (room : (s.trunk t).received.digits.length < 24)
    (hu : u = (s.mapTrunk t (Trunk.storesDigit d)).mapTrunk t (Trunk.receives c.digitEnded)) :
    (∀ outlet, u.overflowing t = some outlet → s.giveDigit t d =
      ((u.dissolve t outlet .overflow (some .congestion)).inOutcome t (.reject .congestion)).forcedClear outlet .overflow) ∧
    (u.overflowing t = none → (s.profiles.get (s.trunk t).profile).mode = .host →
      s.giveDigit t d = ((u.relayDigit t d).showProgress t).afterDigit t) := by
  have fits : ¬ Config.storeRoom ≤ (s.trunk t).received.digits.length := Nat.not_le.mpr room
  have stored : (s.mapReceiver t fun c => { c with phase := .between, pulses := 0, digitEnd := none }).storeDigit t d = u := by
    rw [State.mapReceiver_at _ engine, State.storeDigit_eq, State.mapTrunk_mapTrunk, hu, State.mapTrunk_mapTrunk]
    rfl
  have same : ((s.mapReceiver t fun c => { c with phase := .between, pulses := 0, digitEnd := none }).trunk t).received =
      (s.trunk t).received := by rw [State.mapReceiver, State.mapTrunk_trunk]
  unfold State.giveDigit
  dsimp only
  rw [same, if_neg fits, stored]
  refine ⟨fun outlet full => by rw [full], fun fits_there host => ?_⟩
  have mode : ((u.relayDigit t d).profileOf t).mode = .host := by
    have inner := u.relayDigit_inner t d
    obtain ⟨-, profile, -⟩ := (inner.trunks t).kept
    rw [State.profileOf, inner.profiles, profile, hu, State.mapTrunk_trunk, State.mapTrunk_trunk]
    exact host
  rw [fits_there]
  dsimp only
  rw [mode]

/-- R81, R84: in HOST mode a digit given is shown to the host, and the inter-digit wait follows. -/
theorem State.showProgress_afterDigit {p : Profile} (hp : p = s.profiles.get (s.trunk t).profile) (host : p.mode = .host)
    (engine : (s.trunk t).decadic = some (.receiving c)) :
    (s.showProgress t).afterDigit t = (s.mapTrunk t (Trunk.receives { c with
      wait := some { kind := .interDigit, left := 1000 * p.interDigitWait } })).submit (some t)
        (.digitProgress (s.trunk t).received.category (s.trunk t).received.endReceived (s.trunk t).received.digits) := by
  have names : (s.showProgress t).profileOf t = p := by
    rw [State.showProgress, State.submit_profileOf, State.profileOf, ← hp]
  have shown : ((s.showProgress t).trunk t).decadic = some (.receiving c) := by
    rw [State.showProgress, State.submit_trunk, engine]
  have wait : (s.showProgress t).nextWait t = { kind := .interDigit, left := 1000 * p.interDigitWait } := by
    unfold State.nextWait
    rw [names]
    simp only [host, reduceCtorEq, false_and, if_false]
    rfl
  unfold State.afterDigit
  rw [names, host]
  dsimp only
  rw [State.mapReceiver_at _ shown, wait, State.showProgress, State.submit_mapTrunk]

end Ended

/-! ### A digit at a relay inlet -/

section Inlet

variable {s : State} {inlet outlet : TrunkNo} {l : LinkRecord} {d : Digit} (link : s.linked inlet outlet)
  (record : (s.trunk inlet).linkRecord = some l)

/-- R162: the digits beyond the deleted places overflow a send store that is full. -/
theorem State.overflowing_eq {v : State} (peer : (v.trunk inlet).link = some { peer := outlet, part := .inlet })
    (hl : (v.trunk inlet).linkRecord = some l) : v.overflowing inlet =
      if l.delete < (v.trunk inlet).received.digits.length ∧ 24 ≤ (v.trunk outlet).send.digits.length then some outlet
      else none := by
  simp only [State.overflowing, Trunk.outlet, peer, hl]
  rfl

/-- R162: a digit beyond the deleted places is counted and appended to the outlet's send store. -/
theorem State.relayDigit_eq {v : State} (peer : (v.trunk inlet).link = some { peer := outlet, part := .inlet })
    (hl : (v.trunk inlet).linkRecord = some l) : v.relayDigit inlet d =
      if l.delete < (v.trunk inlet).received.digits.length then
        ((v.mapTrunk inlet fun r => { r with linkRecord := some { l with relayed := l.relayed + 1 } }).mapTrunk outlet
          fun r => { r with send := { r.send with digits := r.send.digits ++ [d] } }).takeDigits outlet
      else v := by
  simp only [State.relayDigit, Trunk.outlet, peer, hl]

include link

/-- What a link that an inlet's digit has overflowed leaves of its two ends. -/
theorem State.linked.lost_ends {lost : State}
    (hlost : lost = (s.mapTrunk inlet (Trunk.storesDigit d)).linkEnds inlet outlet .overflow (some .congestion)) :
    lost.trunk inlet = (Trunk.storesDigit d (s.trunk inlet)).unlink ∧ lost.trunk outlet = (s.trunk outlet).unlink ∧
      lost.callQueue = s.callQueue := by
  subst hlost
  refine ⟨?_, ?_, ?_⟩
  · rw [State.linkEnds_trunk, if_pos (.inr rfl), State.mapTrunk_trunk]
  · rw [State.linkEnds_trunk, if_pos (.inl rfl), State.mapTrunk_trunk_ne _ _ link.distinct.symm]
  · rw [State.linkEnds_callQueue, State.mapTrunk_callQueue]

/-- R50, R162: the outlet of a link that has overflowed clears forward, when the inlet has been rejected. -/
theorem State.linked.overflow_clears {v : State} {o : RegOutcome} (outletEnd : v.trunk outlet = (s.trunk outlet).unlink)
    (queue : v.callQueue = s.callQueue) (waits : (s.trunk outlet).unit = none ∨ ∀ e ∈ s.callQueue, e.trunk ≠ outlet) :
    (v.endsIn inlet o).forcedClear outlet .overflow =
      ((v.endsIn inlet o).clearsOut outlet (some ((s.trunk outlet).cause.getD .overflow))).clearingDecodes outlet := by
  have other : (v.endsIn inlet o).trunk outlet = (s.trunk outlet).unlink :=
    (State.endsIn_other link.distinct.symm o).trans outletEnd
  rw [State.forcedClear_eq, other]
  · rfl
  · rw [other, State.endsIn_callQueue, queue]
    exact waits.imp id fun quiet e he => quiet e (List.mem_of_mem_filter he)

section Decadic

variable {c : DecadicReceiver} {p : Profile} (engine : (s.trunk inlet).decadic = some (.receiving c))
  (room : (s.trunk inlet).received.digits.length < 24)

/-- The inlet's and the outlet's records when the inlet has stored its digit. -/
theorem State.linked.digit_stored (c : DecadicReceiver) :
    ((s.mapTrunk inlet (Trunk.storesDigit d)).mapTrunk inlet (Trunk.receives c)).trunk inlet =
        Trunk.receives c (Trunk.storesDigit d (s.trunk inlet)) ∧
      ((s.mapTrunk inlet (Trunk.storesDigit d)).mapTrunk inlet (Trunk.receives c)).trunk outlet =
        s.trunk outlet := by
  rw [State.mapTrunk_mapTrunk, State.mapTrunk_trunk, State.mapTrunk_trunk_ne _ _ link.distinct.symm]
  exact ⟨rfl, rfl⟩

include record

/-- R162: whether a digit stored at a decadic inlet overflows its link. -/
theorem State.linked.overflowing_stored (c : DecadicReceiver) :
    ((s.mapTrunk inlet (Trunk.storesDigit d)).mapTrunk inlet (Trunk.receives c)).overflowing inlet =
      if l.delete ≤ (s.trunk inlet).received.digits.length ∧ 24 ≤ (s.trunk outlet).send.digits.length then some outlet
      else none := by
  obtain ⟨atInlet, atOutlet⟩ := link.digit_stored (d := d) c
  rw [State.overflowing_eq (l := l) (by rw [atInlet]; exact link.inletLink) (by rw [atInlet]; exact record), atInlet,
    atOutlet]
  exact if_congr (and_congr Trunk.storesDigit_beyond Iff.rfl) rfl rfl

include engine room

/-- R162: a digit that the outlet's full send store loses. -/
theorem State.linked.digit_overflows (delete : l.delete ≤ (s.trunk inlet).received.digits.length)
    (full : 24 ≤ (s.trunk outlet).send.digits.length) {lost : State}
    (hlost : lost = (s.mapTrunk inlet (Trunk.storesDigit d)).linkEnds inlet outlet .overflow (some .congestion))
    (waits : (s.trunk outlet).unit = none ∨ ∀ e ∈ s.callQueue, e.trunk ≠ outlet) :
    s.giveDigit inlet d = ((((lost.mapTrunk inlet (Trunk.receives c.digitEnded)).endsIn inlet
      (.reject .congestion)).clearsOut outlet (some ((s.trunk outlet).cause.getD .overflow))).clearingDecodes outlet) := by
  have lost_ended := State.linkEnds_mapTrunk_inlet (s := s.mapTrunk inlet (Trunk.storesDigit d)) link.distinct .overflow
    (some .congestion) (g := Trunk.receives c.digitEnded) (fun _ => rfl) rfl
  obtain ⟨inletEnd, outletEnd, queue⟩ := link.lost_ends hlost
  have overflows := (link.overflowing_stored (d := d) record c.digitEnded).trans (if_pos ⟨delete, full⟩)
  have selecting : ((lost.mapTrunk inlet (Trunk.receives c.digitEnded)).trunk inlet).state = .inSelecting := by
    rw [State.mapTrunk_trunk, inletEnd]
    exact link.selecting
  rw [(State.giveDigit_stored engine room rfl).1 outlet overflows, State.dissolve_eq, ← lost_ended, ← hlost,
    State.inOutcome_eq _ _ _ selecting]
  refine link.overflow_clears ?_ queue waits
  rw [State.mapTrunk_trunk_ne _ _ link.distinct.symm, outletEnd]

variable (hp : p = s.profiles.get (s.trunk inlet).profile) (host : p.mode = .host)
include hp host

/-- R81, R162: a digit that the inlet keeps, from the state in which the link has taken it. -/
theorem State.linked.digit_kept (fits : ¬ (l.delete ≤ (s.trunk inlet).received.digits.length ∧
      24 ≤ (s.trunk outlet).send.digits.length)) {w : State}
    (taken : ((s.mapTrunk inlet (Trunk.storesDigit d)).mapTrunk inlet (Trunk.receives c.digitEnded)).relayDigit inlet d =
      w.mapTrunk inlet (Trunk.receives c.digitEnded))
    (received : (w.trunk inlet).received = (Trunk.storesDigit d (s.trunk inlet)).received)
    (profile : p = w.profiles.get (w.trunk inlet).profile) :
    s.giveDigit inlet d = (w.mapTrunk inlet (Trunk.receives { c.digitEnded with
      wait := some { kind := .interDigit, left := 1000 * p.interDigitWait } })).submit (some inlet)
        (.digitProgress (s.trunk inlet).received.category (s.trunk inlet).received.endReceived
          ((s.trunk inlet).received.digits ++ [d])) := by
  have overflows := (link.overflowing_stored (d := d) record c.digitEnded).trans (if_neg fits)
  rw [(State.giveDigit_stored engine room rfl).2 overflows (hp ▸ host), taken,
    State.showProgress_afterDigit (c := c.digitEnded) (p := p) (by rw [State.mapTrunk_trunk]; exact profile) host
      (by rw [State.mapTrunk_trunk]; rfl),
    State.mapTrunk_mapTrunk, State.mapTrunk_trunk]
  change State.submit _ _ (.digitProgress (w.trunk inlet).received.category (w.trunk inlet).received.endReceived
    (w.trunk inlet).received.digits) = _
  rw [received]
  rfl

/-- R162: a digit in a deleted place. -/
theorem State.linked.digit_deleted (deleted : ¬ l.delete ≤ (s.trunk inlet).received.digits.length) :
    s.giveDigit inlet d = ((s.mapTrunk inlet (Trunk.storesDigit d)).mapTrunk inlet (Trunk.receives { c.digitEnded with
      wait := some { kind := .interDigit, left := 1000 * p.interDigitWait } })).submit (some inlet)
        (.digitProgress (s.trunk inlet).received.category (s.trunk inlet).received.endReceived
          ((s.trunk inlet).received.digits ++ [d])) := by
  obtain ⟨atInlet, -⟩ := link.digit_stored (d := d) c.digitEnded
  refine link.digit_kept record engine room hp host (fun h => deleted h.1) ?_ ?_ ?_
  · rw [State.relayDigit_eq (l := l) (by rw [atInlet]; exact link.inletLink) (by rw [atInlet]; exact record), if_neg]
    rw [atInlet]
    exact fun h => deleted (Trunk.storesDigit_beyond.mp h)
  · rw [State.mapTrunk_trunk]
  · rw [State.mapTrunk_trunk]
    exact hp

/-- R162: a digit that the link appends to the outlet's send store, from what the outlet's engine does with it. -/
theorem State.linked.digit_relayed (delete : l.delete ≤ (s.trunk inlet).received.digits.length)
    (short : (s.trunk outlet).send.digits.length < 24) {z w : State}
    (hz : z = ((s.mapTrunk inlet (Trunk.storesDigit d)).mapTrunk inlet fun r => { r with
      linkRecord := some { l with relayed := l.relayed + 1 } }).mapTrunk outlet fun r => { r with
        send := { r.send with digits := r.send.digits ++ [d] } })
    (wakes : (z.mapTrunk inlet (Trunk.receives c.digitEnded)).takeDigits outlet =
      w.mapTrunk inlet (Trunk.receives c.digitEnded))
    (same : w.trunk inlet = z.trunk inlet) (profiles : w.profiles = s.profiles) :
    s.giveDigit inlet d = (w.mapTrunk inlet (Trunk.receives { c.digitEnded with
      wait := some { kind := .interDigit, left := 1000 * p.interDigitWait } })).submit (some inlet)
        (.digitProgress (s.trunk inlet).received.category (s.trunk inlet).received.endReceived
          ((s.trunk inlet).received.digits ++ [d])) := by
  obtain ⟨atInlet, -⟩ := link.digit_stored (d := d) c.digitEnded
  have own : z.trunk inlet = { Trunk.storesDigit d (s.trunk inlet) with
      linkRecord := some { l with relayed := l.relayed + 1 } } := by
    rw [hz, State.mapTrunk_trunk_ne _ _ link.distinct, State.mapTrunk_trunk, State.mapTrunk_trunk]
  refine link.digit_kept record engine room hp host (fun h => Nat.not_le.mpr short h.2) ?_ ?_ ?_
  · rw [State.relayDigit_eq (l := l) (by rw [atInlet]; exact link.inletLink) (by rw [atInlet]; exact record), if_pos, ← wakes,
      hz, State.mapTrunk_comm _ link.distinct.symm]
    · simp only [State.mapTrunk_mapTrunk]
      rfl
    · rw [atInlet]
      exact Trunk.storesDigit_beyond.mpr delete
  · rw [same, own]
  · rw [profiles, same, own]
    exact hp

/-- R76, R162: a decadic sender at the outlet that waits starts a relayed digit at once. -/
theorem State.linked.digit_starts (hold : s.hwi.alignment ≠ .hold)
    (delete : l.delete ≤ (s.trunk inlet).received.digits.length)
    (short : (s.trunk outlet).send.digits.length < 24)
    (last : (s.trunk outlet).send.pos = (s.trunk outlet).send.digits.length + 1) {z : State}
    (hz : z = ((s.mapTrunk inlet (Trunk.storesDigit d)).mapTrunk inlet fun r => { r with
      linkRecord := some { l with relayed := l.relayed + 1 } }).mapTrunk outlet fun r => { r with
        send := { r.send with digits := r.send.digits ++ [d] } })
    {k : DecadicSender} (sender : (s.trunk outlet).decadic = some (.sending k)) (sends : k.phase = .waiting) {q : Profile}
    (hq : q = s.profiles.get (s.trunk outlet).profile) :
    s.giveDigit inlet d = ((z.mapTrunk outlet fun r => { r with
      sentCode := q.codes.fClear
      decadic := some (.sending { k with
        phase := .breaking, breaks := if d.val = 0 then 10 else d.val, timer := some q.sendBreak }) }).mapTrunk inlet
        (Trunk.receives { c.digitEnded with wait := some { kind := .interDigit, left := 1000 * p.interDigitWait } })).submit
        (some inlet) (.digitProgress (s.trunk inlet).received.category (s.trunk inlet).received.endReceived
          ((s.trunk inlet).received.digits ++ [d])) := by
  have peer : (z.mapTrunk inlet (Trunk.receives c.digitEnded)).trunk outlet = { s.trunk outlet with
      send := { (s.trunk outlet).send with digits := (s.trunk outlet).send.digits ++ [d] } } := by
    rw [hz]
    simp only [State.mapTrunk_trunk_ne _ _ link.distinct.symm, State.mapTrunk_trunk]
  refine link.digit_relayed record engine room hp host delete short hz ?_ (State.mapTrunk_trunk_ne _ _ link.distinct)
    (by rw [hz]; rfl)
  rw [State.takeDigits_starts (c := k) (d := d) (p := q) (by rw [peer, hz]; exact hq) (by rw [hz]; exact hold)
    (by rw [peer]; exact sender) sends (by rw [peer]; simp [SendStore.current, last]),
    State.mapTrunk_comm _ link.distinct]
  rfl

/-- R127, R162: a tone sender at the outlet that waits sends a relayed digit at once. -/
theorem State.linked.digit_sends (delete : l.delete ≤ (s.trunk inlet).received.digits.length)
    (short : (s.trunk outlet).send.digits.length < 24) {z : State}
    (hz : z = ((s.mapTrunk inlet (Trunk.storesDigit d)).mapTrunk inlet fun r => { r with
      linkRecord := some { l with relayed := l.relayed + 1 } }).mapTrunk outlet fun r => { r with
        send := { r.send with digits := r.send.digits ++ [d] } })
    {k : ToneSender} {h : HeldUnit} (decadic : (s.trunk outlet).decadic = none)
    (sender : (s.trunk outlet).tone = some (.sender k)) (sends : k.phase = .waiting)
    (unit : (s.trunk outlet).unit = some h) :
    s.giveDigit inlet d = ((z.sendsNext outlet h.unit k).mapTrunk inlet
        (Trunk.receives { c.digitEnded with wait := some { kind := .interDigit, left := 1000 * p.interDigitWait } })).submit
        (some inlet) (.digitProgress (s.trunk inlet).received.category (s.trunk inlet).received.endReceived
          ((s.trunk inlet).received.digits ++ [d])) := by
  have peer : (z.mapTrunk inlet (Trunk.receives c.digitEnded)).trunk outlet = { s.trunk outlet with
      send := { (s.trunk outlet).send with digits := (s.trunk outlet).send.digits ++ [d] } } := by
    rw [hz]
    simp only [State.mapTrunk_trunk_ne _ _ link.distinct.symm, State.mapTrunk_trunk]
  have others : (z.sendsNext outlet h.unit k).trunk inlet = z.trunk inlet ∧
      (z.sendsNext outlet h.unit k).profiles = z.profiles := by
    unfold State.sendsNext State.sends
    dsimp only
    split_ifs <;> exact ⟨State.mapTrunk_trunk_ne _ _ link.distinct, rfl⟩
  refine link.digit_relayed record engine room hp host delete short hz ?_ others.1 (others.2.trans (by rw [hz]; rfl))
  have wakes := (State.takeDigits_tone (s := z.mapTrunk inlet (Trunk.receives c.digitEnded)) (t := outlet) (c := k) (h := h)
    (by rw [peer]; exact decadic) (by rw [peer]; exact sender) (by rw [peer]; exact unit)).1
  rw [wakes, if_pos sends, State.sendsNext_mapTrunk _ link.distinct.symm]

end Decadic

/-- R132, R162: a digit recognised at a tone inlet that the outlet's full send store loses. -/
theorem State.linked.tone_overflows {c : ToneReceiver} {h : HeldUnit} {f : ForwardSignal} {lost : State}
    (record : (s.trunk inlet).linkRecord = some l)
    (room : (s.trunk inlet).received.digits.length < 24) (delete : l.delete ≤ (s.trunk inlet).received.digits.length)
    (full : 24 ≤ (s.trunk outlet).send.digits.length)
    (hlost : lost = (s.mapTrunk inlet (Trunk.storesDigit d)).linkEnds inlet outlet .overflow (some .congestion))
    (waits : (s.trunk outlet).unit = none ∨ ∀ e ∈ s.callQueue, e.trunk ≠ outlet)
    (tone : (s.trunk inlet).tone = some (.receiver c)) (unit : (s.trunk inlet).unit = some h)
    (meaning : f.meaning = .digit d) (listening : c.phase = .listening) (pending : c.pending = none)
    (more : c.complete = false) :
    s.toneEvent inlet (.recognised (.forward f)) = ((lost.respondsLast inlet h.unit c (.reject .congestion)).clearsOut
      outlet (some ((s.trunk outlet).cause.getD .overflow))).clearingDecodes outlet := by
  obtain ⟨inletEnd, outletEnd, queue⟩ := link.lost_ends hlost
  have fits : ¬ Config.storeRoom ≤ (s.trunk inlet).received.digits.length := Nat.not_le.mpr room
  have overflows : (s.mapTrunk inlet (Trunk.storesDigit d)).overflowing inlet = some outlet := by
    rw [State.overflowing_eq (outlet := outlet) (l := l) (by rw [State.mapTrunk_trunk]; exact link.inletLink)
      (by rw [State.mapTrunk_trunk]; exact record), if_pos]
    rw [State.mapTrunk_trunk, State.mapTrunk_trunk_ne _ _ link.distinct.symm]
    exact ⟨Trunk.storesDigit_beyond.mpr delete, full⟩
  have answered : lost.respondOutcome inlet { c with timer := none } (.reject .congestion) =
      lost.respondsLast inlet h.unit c (.reject .congestion) :=
    lost.respondOutcome_eq inlet _ _ (by rw [inletEnd]; exact unit) (by rw [inletEnd]; exact link.selecting)
  have recognised : s.toneEvent inlet (.recognised (.forward f)) = s.receiveDigit inlet { c with timer := none } d := by
    unfold State.toneEvent State.receiverRecognised
    rw [tone]
    dsimp only
    rw [if_neg (by simp [listening]), pending, meaning]
  rw [recognised]
  unfold State.receiveDigit
  rw [if_neg (by simp [more]), if_neg fits, State.storeDigit_eq]
  dsimp only
  rw [overflows]
  dsimp only
  rw [State.dissolve_eq, ← hlost]
  rw [answered]
  refine link.overflow_clears ?_ queue waits
  exact (State.mapTrunk_trunk_ne (lost.mapUnit h.unit _) _ link.distinct.symm).trans outletEnd

end Inlet

end Sys2Proof.Machine
end

section
/-! PROOFS. Relay links with a decadic and with a tone inlet, and the statement on relay links. -/

namespace Sys2Proof.Machine

/-! ### Clearing forward of a trunk that holds no unit and has no code to decode -/

section Bare

variable {s : State} {t : TrunkNo}

theorem State.quitsWork_bare (unit : (s.trunk t).unit = none) (waits : ∀ e ∈ s.callQueue, e.trunk ≠ t)
    (f : Trunk → Trunk) : s.quitsWork t f = s.mapTrunk t fun r => f r.offWork := by
  rw [State.quitsWork_absent _ waits, State.endsWork, unit]
  rfl

/-- R36: nothing is decoded while no code has been accepted. -/
theorem State.clearingDecodes_unknown (h : (s.trunk t).lcr.accepted = none) : s.clearingDecodes t = s := by
  simp [State.clearingDecodes, h]

/-- R50, R54: a trunk that has cleared forward. -/
def Trunk.clears (q : Profile) (cause : Option Cause) (r : Trunk) : Trunk := { r.offWork with
  cause := cause, state := .outClearing, sentCode := q.codes.fClear
  timer := some { kind := .release, left := q.releaseTimer } }

theorem State.clearsOut_bare {q : Profile} (hq : q = s.profiles.get (s.trunk t).profile) (unit : (s.trunk t).unit = none)
    (waits : ∀ e ∈ s.callQueue, e.trunk ≠ t) (unknown : (s.trunk t).lcr.accepted = none) (cause : Option Cause) :
    (s.clearsOut t cause).clearingDecodes t = s.mapTrunk t (Trunk.clears q cause) := by
  have cleared : s.clearsOut t cause = s.mapTrunk t (Trunk.clears q cause) := by
    rw [State.clearsOut, State.quitsWork_bare unit waits]
    refine State.mapTrunk_congr _ _ ?_
    rw [hq]
    rfl
  rw [cleared]
  refine State.clearingDecodes_unknown ?_
  rw [State.mapTrunk_trunk]
  exact unknown

end Bare

/-- R164: the LINK-END report shows the outcome that the link carries. -/
theorem State.carries_result {s : State} {inlet outlet : TrunkNo} (o : RegOutcome) :
    s.carries inlet outlet o = (s.linkEnds inlet outlet .outlet (some o.result)).inletTakes inlet o := by
  cases o with
  | complete => rfl
  | reject cause =>
    exact congrArg (fun r => (s.linkEnds inlet outlet .outlet (some r)).inletTakes inlet (.reject cause))
      (Cause.result_eq cause).symm

/-! ### A tone inlet -/

section Tone

variable {s : State} {inlet outlet : TrunkNo} {l : LinkRecord} {c : ToneReceiver} {h : HeldUnit}

/-- R139, R164: a tone inlet takes what is carried as an outcome from outside. -/
theorem State.carries_tone {o : RegOutcome} {r : RegResult} (record : (s.trunk inlet).linkRecord = some l)
    (tone : (s.trunk inlet).tone = some (.receiver c)) (unit : (s.trunk inlet).unit = some h) (pending : c.pending = none)
    (result : o.result = r) : s.carries inlet outlet o =
      (((s.mapTrunk inlet Trunk.unlink).mapTrunk outlet Trunk.unlink).submit (some inlet)
        (.linkEnd outlet .outlet (some r) l.relayed)).takesOutcome inlet h.unit c o := by
  have unlinked : ((s.linkEnds inlet outlet .outlet (some r)).trunk inlet) = (s.trunk inlet).unlink := by
    rw [State.linkEnds_trunk, if_pos (.inr rfl)]
  rw [State.carries_result, result]
  unfold State.inletTakes
  rw [unlinked]
  simp only [Trunk.unlink, tone, unit, pending, if_true, State.linkEnds_eq, record, Option.map_some, Option.getD_some]

section Linked

variable (link : s.linked inlet outlet)
include link

/-- R54, R164: RELEASE of an outlet that holds no unit and has no code to decode. -/
theorem State.linked.release_bare (held : (s.trunk inlet).holdsReceiver) {q : Profile}
    (hq : q = s.profiles.get (s.trunk outlet).profile) (unit : (s.trunk outlet).unit = none)
    (waits : ∀ e ∈ s.callQueue, e.trunk ≠ outlet) (unknown : (s.trunk outlet).lcr.accepted = none) :
    s.releaseCall outlet = (s.carries inlet outlet (.reject .congestion)).mapTrunk outlet
      (Trunk.clears q (s.trunk outlet).cause) := by
  have moved := State.carries_mapTrunk (s := s) link.distinct (.reject .congestion) (g := Trunk.offWork) (fun _ => rfl)
    (fun _ => rfl)
  have worked : s.quitsWork outlet id = s.mapTrunk outlet Trunk.offWork := State.quitsWork_bare unit waits id
  obtain ⟨record, quiet⟩ := link.carried_outlet (.reject .congestion)
  have names := link.carried_names held (o := .reject .congestion) rfl hq
  rw [link.releaseCall held (.inl unit) rfl,
    State.clearsOut_bare names (by rw [record]; rfl) quiet (by rw [record]; exact unknown), worked, ← moved,
    State.mapTrunk_mapTrunk]
  rfl

/-- R121, R129, R164: the outcome of a tone sender at an outlet. -/
theorem State.linked.endSender (held : (s.trunk inlet).holdsReceiver) (state : (s.trunk outlet).state = .outSelecting)
    (inletWaits : ∀ e ∈ s.callQueue, e.trunk ≠ inlet) (outletWaits : ∀ e ∈ s.callQueue, e.trunk ≠ outlet) (o : RegOutcome) :
    s.endSender outlet o = (s.senderEnds outlet o).carries inlet outlet o.carried ∧
      (s.senderEnds outlet o).trunk inlet = s.trunk inlet := by
  have inletEnd : (s.endTone true outlet).trunk inlet = s.trunk inlet := by
    rw [State.endTone_eq]
    exact ((State.mapTrunk_untouched link.distinct _).trans (State.frees_untouched _) inletWaits).1
  have outletEnd : (s.endTone true outlet).trunk outlet = { s.trunk outlet with tone := none, unit := none } := by
    rw [State.endTone_eq, State.frees_trunk (s.mapTrunk outlet _) _ _ outletWaits, State.mapTrunk_trunk]
  have ended : (s.endTone true outlet).linked inlet outlet := by
    obtain ⟨distinct, inletLink, outletLink, selecting⟩ := link
    exact ⟨distinct, by rw [inletEnd, inletLink], by rw [outletEnd]; exact outletLink, by rw [inletEnd, selecting]⟩
  have whole : s.senderEnds outlet o = (s.endTone true outlet).endsOut outlet o := by
    rw [State.endTone_eq, State.senderEnds]
  rw [whole, State.endsOut_other link.distinct, inletEnd]
  exact ⟨ended.outOutcome (by rwa [inletEnd]) (by rw [outletEnd]; exact state) o, rfl⟩

/-- R151, R165: the host rejects the number of a tone inlet. -/
theorem State.linked.acceptNumber_tone (inletWaits : ∀ e ∈ s.callQueue, e.trunk ≠ inlet)
    (outletWaits : ∀ e ∈ s.callQueue, e.trunk ≠ outlet) (tone : (s.trunk inlet).tone = some (.receiver c))
    (unit : (s.trunk inlet).unit = some h) (pending : c.pending = none) (cause : Cause) :
    s.acceptNumber inlet (.reject cause) =
      (s.inletLeaves inlet outlet).takesOutcome inlet h.unit c (.reject cause) := by
  have peer : (s.trunk inlet).outlet = some outlet := by rw [Trunk.outlet, link.inletLink]
  have left := (link.leaves_inlet inletWaits).1
  simp only [State.acceptNumber, peer, State.rejectLinkedInlet, tone]
  rw [link.inletGone (.inr outletWaits), State.takeCarried, left]
  simp only [Trunk.unlink, tone]
  exact State.outsideOutcome_eq _ _ _ _ (by rw [left]; exact unit) (by rw [left]; exact link.selecting) pending

end Linked

end Tone

/-! ### What a sender does with the outcome signals -/

/-- R126: the outcome that a backward signal gives a sender. -/
theorem State.senderActs_outcome {s : State} {t : TrunkNo} {k : ToneSender} {b : BackwardSignal} {o : RegOutcome}
    {r : RegResult} (listed : (b, o, r) ∈ [(BackwardSignal.bt4, RegOutcome.complete, RegResult.complete),
      (.bt5, .reject .congestion, .congestion), (.bt6, .reject .unobtainable, .unobtainable)]) :
    s.senderActs t k b = s.endSender t o ∧ o.carried = o ∧ o.result = r := by
  simp only [List.mem_cons, Prod.mk.injEq, List.not_mem_nil, or_false] at listed
  rcases listed with ⟨rfl, rfl, rfl⟩ | ⟨rfl, rfl, rfl⟩ | ⟨rfl, rfl, rfl⟩ <;> exact ⟨rfl, rfl, rfl⟩

/-- R124, R126: a cessation at a sender that has noted a signal. -/
theorem State.toneEvent_ceased {s : State} {t : TrunkNo} {k : ToneSender} {b : BackwardSignal} (x : ToneSignal)
    (tone : (s.trunk t).tone = some (.sender k)) (answered : k.phase = .answered) (noted : k.noted = some b) :
    s.toneEvent t (.ceased x) = s.senderActs t k b := by
  unfold State.toneEvent State.senderCeased
  rw [tone]
  dsimp only
  rw [answered, noted]

/-! ### A decadic inlet -/

section Decadic

variable {s : State} {inlet outlet : TrunkNo}

/-- R58: what a rejection leaves of the trunks, and its report. -/
theorem State.endsIn_rejects {t : TrunkNo} {p : Profile} (hp : p = s.profiles.get (s.trunk t).profile)
    (state : (s.trunk t).state = .inSelecting) (cause : Cause) :
    (((s.endsIn t (.reject cause)).trunk t).state = .inRejected ∧
      ((s.endsIn t (.reject cause)).trunk t).sentCode = p.codes.bClearback ∧
      ((s.endsIn t (.reject cause)).trunk t).link = (s.trunk t).link ∧
      ((s.endsIn t (.reject cause)).trunk t).linkRecord = (s.trunk t).linkRecord) ∧
    (s.endsIn t (.reject cause)).reported (some t) (.registerEnd (s.trunk t).callRef cause.result (some cause)) := by
  obtain ⟨trunks, report⟩ := s.inOutcome_reject t cause state
  rw [State.inOutcome_eq _ _ _ state] at trunks report
  rw [trunks t, if_pos rfl]
  exact ⟨⟨rfl, by rw [hp]; rfl, rfl, rfl⟩, report⟩

theorem State.endsIn_inner {t : TrunkNo} (state : (s.trunk t).state = .inSelecting) (o : RegOutcome) :
    Inner s (s.endsIn t o) := by
  rw [← State.inOutcome_eq _ _ _ state]
  exact s.inOutcome_inner t o

/-- R164: a decadic inlet takes what is carried at once. -/
theorem State.carries_plain (tone : (s.trunk inlet).tone = none) :
    s.carries inlet outlet (.reject .congestion) =
      (s.linkEnds inlet outlet .outlet (some .congestion)).endsIn inlet (.reject .congestion) := by
  have unlinked : ((s.linkEnds inlet outlet .outlet (some .congestion)).trunk inlet).tone = none := by
    rw [State.linkEnds_trunk, if_pos (.inr rfl)]
    exact tone
  rw [State.carries_result]
  change (s.linkEnds inlet outlet .outlet (some .congestion)).inletTakes inlet (.reject .congestion) = _
  rw [State.inletTakes, unlinked]

end Decadic

end Sys2Proof.Machine
end

section
/-! PROOFS. The statement on relay links. -/

namespace Sys2Proof.Machine

theorem State.mapTrunk_reported {s : State} {t : TrunkNo} {f : Trunk → Trunk} {x : Option TrunkNo} {b : ReportBody} :
    (s.mapTrunk t f).reported x b ↔ s.reported x b := Iff.rfl

theorem State.linkEnds_profiles {s : State} {inlet outlet : TrunkNo} (ending : LinkEnding) (outcome : Option RegResult) :
    (s.linkEnds inlet outlet ending outcome).profiles = s.profiles := State.submit_profiles _ _ _

section Decadic

variable {s : State} {inlet outlet : TrunkNo} {l : LinkRecord} {p q : Profile} (link : s.linked inlet outlet)
  (record : (s.trunk inlet).linkRecord = some l) (tone : (s.trunk inlet).tone = none)
  (hp : p = s.profiles.get (s.trunk inlet).profile) (hq : q = s.profiles.get (s.trunk outlet).profile)
  (waits : ∀ e ∈ s.callQueue, e.trunk ≠ outlet) (unit : (s.trunk outlet).unit = none)
  (unknown : (s.trunk outlet).lcr.accepted = none)

/-- R50, R58, R166: a link that has dissolved, with its inlet rejected and its outlet clearing forward. -/
structure State.linkGone (s u : State) (inlet outlet : TrunkNo) (p q : Profile) (outletCause : Option Cause) : Prop where
  links : ∀ t ∈ [inlet, outlet], (u.trunk t).link = none ∧ (u.trunk t).linkRecord = none
  inletEnd : (u.trunk inlet).state = .inRejected ∧ (u.trunk inlet).sentCode = p.codes.bClearback
  outletEnd : (u.trunk outlet).state = .outClearing ∧ (u.trunk outlet).sentCode = q.codes.fClear ∧
    (u.trunk outlet).cause = outletCause
  others : ∀ t ∉ [inlet, outlet], u.trunk t = s.trunk t

theorem State.linkGone_of {v : State} (distinct : inlet ≠ outlet)
    (inletLink : (v.trunk inlet).link = none ∧ (v.trunk inlet).linkRecord = none)
    (inletEnd : (v.trunk inlet).state = .inRejected ∧ (v.trunk inlet).sentCode = p.codes.bClearback)
    (outletEnd : v.trunk outlet = (s.trunk outlet).unlink) (others : ∀ t, t ≠ inlet → t ≠ outlet → v.trunk t = s.trunk t)
    (cause : Option Cause) : s.linkGone (v.mapTrunk outlet (Trunk.clears q cause)) inlet outlet p q cause := by
  have inletSame := State.mapTrunk_trunk_ne v (Trunk.clears q cause) distinct
  refine ⟨fun t ht => ?_, ?_, ?_, fun t ht => ?_⟩
  · simp only [List.mem_cons, List.not_mem_nil, or_false] at ht
    rcases ht with rfl | rfl
    · rw [inletSame]
      exact inletLink
    · rw [State.mapTrunk_trunk, outletEnd]
      exact ⟨rfl, rfl⟩
  · rw [inletSame]
    exact inletEnd
  · rw [State.mapTrunk_trunk]
    exact ⟨rfl, rfl, rfl⟩
  · simp only [List.mem_cons, List.not_mem_nil, or_false, not_or] at ht
    rw [State.mapTrunk_trunk_ne _ _ ht.2]
    exact others t ht.1 ht.2

include link record hp hq waits unit unknown

include tone in
/-- R54, R58, R164: RELEASE of the outlet of a decadic inlet. -/
theorem State.linked.release_plain : s.linkGone (s.releaseCall outlet) inlet outlet p q (s.trunk outlet).cause ∧
    (s.releaseCall outlet).reported (some inlet) (.linkEnd outlet .outlet (some .congestion) l.relayed) ∧
    (s.releaseCall outlet).reported (some inlet) (.registerEnd (s.trunk inlet).callRef .congestion (some .congestion)) := by
  have held : (s.trunk inlet).holdsReceiver := fun c context => by rw [tone] at context; cases context
  have cut (k : TrunkNo) := State.linkEnds_trunk (s := s) (inlet := inlet) (outlet := outlet) .outlet (some .congestion) k
  have inletCut := (cut inlet).trans (if_pos (.inr rfl))
  have selecting : ((s.linkEnds inlet outlet .outlet (some .congestion)).trunk inlet).state = .inSelecting := by
    rw [inletCut]
    exact link.selecting
  have names : p = (s.linkEnds inlet outlet .outlet (some .congestion)).profiles.get
      ((s.linkEnds inlet outlet .outlet (some .congestion)).trunk inlet).profile := by
    rw [inletCut, State.linkEnds_profiles]
    exact hp
  obtain ⟨⟨state, sent, unlinked, dropped⟩, ended⟩ := State.endsIn_rejects names selecting .congestion
  rw [inletCut] at unlinked dropped ended
  have carried : (s.linkEnds inlet outlet .outlet (some .congestion)).reported (some inlet)
      (.linkEnd outlet .outlet (some .congestion) l.relayed) := by
    rw [State.linkEnds_eq, record]
    exact State.submit_reported _ _ rfl
  have shown := (State.endsIn_inner selecting (.reject .congestion)).reported rfl carried
  have whole : s.releaseCall outlet =
      ((s.linkEnds inlet outlet .outlet (some .congestion)).endsIn inlet (.reject .congestion)).mapTrunk outlet
        (Trunk.clears q (s.trunk outlet).cause) := by
    rw [link.release_bare held hq unit waits unknown, State.carries_plain tone]
  rw [whole]
  refine ⟨State.linkGone_of link.distinct ⟨unlinked, dropped⟩ ⟨state, sent⟩ ?_ (fun t ht ho => ?_) _,
    State.mapTrunk_reported.mpr shown, State.mapTrunk_reported.mpr ended⟩
  · rw [State.endsIn_other link.distinct.symm, cut, if_pos (.inl rfl)]
  · rw [State.endsIn_other ht, cut, if_neg (by simp [ht, ho])]

/-- R58, R84, R165: the first-digit wait of a decadic inlet. -/
theorem State.linked.digitWait_plain :
    s.linkGone (s.digitWaitEnded inlet .firstDigit) inlet outlet p q (some ((s.trunk outlet).cause.getD .inletCleared)) ∧
    (s.digitWaitEnded inlet .firstDigit).reported (some inlet) (.linkEnd outlet .inlet none l.relayed) ∧
    (s.digitWaitEnded inlet .firstDigit).reported (some inlet)
      (.registerEnd (s.trunk inlet).callRef .congestion (some .digitTimeout)) := by
  obtain ⟨⟨state, sent, -, kept⟩, ended⟩ := State.endsIn_rejects hp link.selecting .digitTimeout
  have inner := State.endsIn_inner link.selecting (.reject .digitTimeout)
  have outletKept := State.endsIn_other (s := s) link.distinct.symm (.reject .digitTimeout)
  have cut (k : TrunkNo) := State.linkEnds_trunk (s := s.endsIn inlet (.reject .digitTimeout)) (inlet := inlet)
    (outlet := outlet) .inlet none k
  have outletCut := (cut outlet).trans (if_pos (.inl rfl))
  rw [outletKept] at outletCut
  have leaves := State.dissolve_inner (s.endsIn inlet (.reject .digitTimeout)) inlet outlet .inlet none
  have shown : ((s.endsIn inlet (.reject .digitTimeout)).linkEnds inlet outlet .inlet none).reported (some inlet)
      (.linkEnd outlet .inlet none l.relayed) := by
    rw [State.linkEnds_eq, kept, record]
    exact State.submit_reported _ _ rfl
  have names : q = ((s.endsIn inlet (.reject .digitTimeout)).linkEnds inlet outlet .inlet none).profiles.get
      (((s.endsIn inlet (.reject .digitTimeout)).linkEnds inlet outlet .inlet none).trunk outlet).profile := by
    rw [outletCut, State.linkEnds_profiles, inner.profiles]
    exact hq
  have quiet : ∀ e ∈ ((s.endsIn inlet (.reject .digitTimeout)).linkEnds inlet outlet .inlet none).callQueue,
      e.trunk ≠ outlet := by
    rw [State.linkEnds_callQueue, State.endsIn_callQueue]
    exact fun e he => waits e (List.mem_of_mem_filter he)
  have whole : s.digitWaitEnded inlet .firstDigit =
      ((s.endsIn inlet (.reject .digitTimeout)).linkEnds inlet outlet .inlet none).mapTrunk outlet
        (Trunk.clears q (some ((s.trunk outlet).cause.getD .inletCleared))) := by
    rw [link.digitWaitEnded (.inl unit), State.inletLeaves]
    rw [State.clearsOut_bare names (by rw [outletCut]; exact unit) quiet (by rw [outletCut]; exact unknown), outletCut]
    rfl
  rw [whole]
  refine ⟨State.linkGone_of link.distinct ?_ ?_ outletCut (fun t ht ho => ?_) _,
    State.mapTrunk_reported.mpr shown, State.mapTrunk_reported.mpr (leaves.reported rfl ended)⟩
  · rw [cut, if_pos (.inr rfl)]
    exact ⟨rfl, rfl⟩
  · rw [cut, if_pos (.inr rfl)]
    exact ⟨state, sent⟩
  · rw [cut, if_neg (by simp [ht, ho]), State.endsIn_other ht]

end Decadic

end Sys2Proof.Machine
end

section
/-! PROOFS. The statement on relay links, part by part. -/

namespace Sys2Proof.Machine

section Linked

variable {s : State} {inlet outlet : TrunkNo} {l : LinkRecord} (link : s.linked inlet outlet)
  (record : (s.trunk inlet).linkRecord = some l)
include link record

/-- R162: a digit at a decadic inlet whose outlet sends nothing yet. -/
theorem State.linked.digit_unsent {c : DecadicReceiver} {d : Digit} {p : Profile}
    (engine : (s.trunk inlet).decadic = some (.receiving c)) (room : (s.trunk inlet).received.digits.length < 24)
    (hp : p = s.profiles.get (s.trunk inlet).profile) (host : p.mode = .host)
    (short : (s.trunk outlet).send.digits.length < 24)
    (decadic : (s.trunk outlet).decadic = none) (tone : (s.trunk outlet).tone = none) :
    s.giveDigit inlet d = (((s.mapTrunk inlet fun r => { r with
        received := { r.received with digits := r.received.digits ++ [d] }
        record := r.record.map fun k => { k with digits := k.digits ++ [d] }
        linkRecord := some (if l.delete ≤ r.received.digits.length then { l with relayed := l.relayed + 1 } else l)
        decadic := some (.receiving { c with
          phase := .between, pulses := 0, digitEnd := none
          wait := some { kind := .interDigit, left := 1000 * p.interDigitWait } }) }).mapTrunk outlet fun r => { r with
        send := { r.send with digits := r.send.digits ++
          if l.delete ≤ (s.trunk inlet).received.digits.length then [d] else [] } }).submit (some inlet)
        (.digitProgress (s.trunk inlet).received.category (s.trunk inlet).received.endReceived
          ((s.trunk inlet).received.digits ++ [d]))) := by
  by_cases delete : l.delete ≤ (s.trunk inlet).received.digits.length
  · rw [link.digit_relayed record engine room hp host delete short rfl
      (State.takeDigits_none ?_ ?_).1 rfl rfl]
    · refine congrArg (State.submit · _ _) ?_
      rw [State.mapTrunk_comm _ link.distinct.symm, State.mapTrunk_mapTrunk, State.mapTrunk_mapTrunk, if_pos delete]
      refine congrArg (State.mapTrunk · outlet _) (State.mapTrunk_congr _ _ ?_)
      rw [if_pos delete]
      rfl
    · simp only [State.mapTrunk_trunk_ne _ _ link.distinct.symm, State.mapTrunk_trunk, decadic]
    · simp only [State.mapTrunk_trunk_ne _ _ link.distinct.symm, State.mapTrunk_trunk, tone]
  · rw [link.digit_deleted record engine room hp host delete, State.mapTrunk_mapTrunk, if_neg delete]
    refine congrArg (State.submit · _ _) ?_
    rw [State.mapTrunk_same (t := outlet) (by simp)]
    refine State.mapTrunk_congr _ _ ?_
    rw [if_neg delete, ← record]
    rfl

/-- R54, R139, R164: RELEASE of the outlet of a tone inlet. -/
theorem State.linked.release_tone {c : ToneReceiver} {h : HeldUnit} {q : Profile}
    (hq : q = s.profiles.get (s.trunk outlet).profile) (waits : ∀ e ∈ s.callQueue, e.trunk ≠ outlet)
    (tone : (s.trunk inlet).tone = some (.receiver c)) (pending : c.pending = none) (unit : (s.trunk inlet).unit = some h)
    (bare : (s.trunk outlet).unit = none) (unknown : (s.trunk outlet).lcr.accepted = none) :
    s.releaseCall outlet = ((((s.mapTrunk inlet Trunk.unlink).mapTrunk outlet Trunk.unlink).submit (some inlet)
      (.linkEnd outlet .outlet (some .congestion) l.relayed)).takesOutcome inlet h.unit c (.reject .congestion)).mapTrunk
        outlet fun r => { r with
          decadic := none, tone := none, unit := none, lcr := { r.lcr with mode := .line }
          state := .outClearing, sentCode := q.codes.fClear
          timer := some { kind := .release, left := q.releaseTimer } } := by
  have held : (s.trunk inlet).holdsReceiver := fun _ _ => by rw [unit]; rfl
  have carried := State.carries_tone (outlet := outlet) (o := .reject .congestion) (r := .congestion) record tone unit pending rfl
  have kept := (State.carries_outlet link.distinct (.reject .congestion) waits).1
  rw [link.release_bare held hq bare waits unknown, ← carried]
  refine State.mapTrunk_congr _ _ ?_
  rw [kept]
  rfl

/-- R139, R164: the outcome of a tone sender at the outlet of a tone inlet. -/
theorem State.linked.ceased_tone {c : ToneReceiver} {h : HeldUnit} {k : ToneSender} {b : BackwardSignal}
    {o : RegOutcome} {r : RegResult} (x : ToneSignal)
    (inletWaits : ∀ e ∈ s.callQueue, e.trunk ≠ inlet) (outletWaits : ∀ e ∈ s.callQueue, e.trunk ≠ outlet)
    (tone : (s.trunk inlet).tone = some (.receiver c)) (pending : c.pending = none) (unit : (s.trunk inlet).unit = some h)
    (state : (s.trunk outlet).state = .outSelecting) (sender : (s.trunk outlet).tone = some (.sender k))
    (answered : k.phase = .answered) (noted : k.noted = some b)
    (listed : (b, o, r) ∈ [(BackwardSignal.bt4, RegOutcome.complete, RegResult.complete),
      (.bt5, .reject .congestion, .congestion), (.bt6, .reject .unobtainable, .unobtainable)]) :
    s.toneEvent outlet (.ceased x) = ((((s.senderEnds outlet o).mapTrunk inlet Trunk.unlink).mapTrunk outlet
      Trunk.unlink).submit (some inlet) (.linkEnd outlet .outlet (some r) l.relayed)).takesOutcome inlet h.unit c o := by
  have held : (s.trunk inlet).holdsReceiver := fun _ _ => by rw [unit]; rfl
  obtain ⟨acts, as_is, result⟩ := State.senderActs_outcome (s := s) (t := outlet) (k := k) listed
  obtain ⟨ended, own⟩ := link.endSender held state inletWaits outletWaits o
  rw [State.toneEvent_ceased x sender answered noted, acts, ended, as_is]
  exact State.carries_tone (by rw [own]; exact record) (by rw [own]; exact tone) (by rw [own]; exact unit) pending result

end Linked

/-- Settles O19: part by part, the lemmas about linked trunks. -/
theorem relayLinkRelaysDigitsAndDissolves : Obligations.RelayLinkRelaysDigitsAndDissolves := by
  unfold Obligations.RelayLinkRelaysDigitsAndDissolves
  refine ⟨?decadicInlet, ?toneInlet, ?outletEnds, ?inletEnds, ?overflow⟩
  case decadicInlet =>
    intro s inlet outlet l c p q distinct hp hq hold waits inletLink record selecting engine tone outletLink equipped
      state decadic outletTone unit unknown
    have link : s.linked inlet outlet := ⟨distinct, inletLink, outletLink, selecting⟩
    have outletWaits := fun e he => (waits e he).2
    refine ⟨fun d counting due pulses host room short => ?_, ?_, fun between wait => ?_⟩
    · rw [exec_digitEndTimerExpiry hold engine counting due pulses,
        link.digit_unsent record engine room hp host short decadic outletTone]
    · obtain ⟨⟨links, ⟨inState, inCode⟩, ⟨outState, outCode, cause⟩, others⟩, ended, rejected⟩ :=
        link.release_plain record tone hp hq outletWaits unit unknown
      refine ⟨s.releaseCall outlet, ?_, ended, rejected, links, inState, inCode, outState, outCode, cause, others⟩
      rw [exec_release, State.takeRelease_ok equipped (by rw [state]; rfl)]
    · obtain ⟨⟨links, ⟨inState, inCode⟩, ⟨outState, outCode, cause⟩, others⟩, ended, rejected⟩ :=
        link.digitWait_plain record hp hq outletWaits unit unknown
      exact ⟨s.digitWaitEnded inlet .firstDigit,
        exec_decadicDigitWaitExpiry (State.receiverRunning_some hold engine) between wait, ended, rejected, links, inState,
        inCode, outState, outCode, cause, others⟩
  case toneInlet =>
    intro s inlet outlet l c h q cut distinct hq waits inletLink record selecting tone pending unit outletLink equipped hcut
    have link : s.linked inlet outlet := ⟨distinct, inletLink, outletLink, selecting⟩
    have outletWaits := fun e he => (waits e he).2
    have inletWaits := fun e he => (waits e he).1
    refine ⟨fun state bare unknown => ?_, fun k x b o r state sender answered noted listed => ?_,
      fun code cause x listed unfinished equippedIn hx => ?_⟩
    · rw [exec_release, State.takeRelease_ok equipped (by rw [state]; rfl), hcut,
        link.release_tone record hq outletWaits tone pending unit bare unknown]
      rfl
    · rw [hcut]
      exact link.ceased_tone record x inletWaits outletWaits tone pending unit state sender answered noted listed
    · rw [exec_acceptDigits equippedIn selecting (by simp [record, unfinished]) (by simp [Trunk.outcomePending, tone, pending])
        (rejection_listed listed), link.acceptNumber_tone inletWaits outletWaits tone unit pending cause, hx]
  case outletEnds =>
    intro s inlet outlet q x distinct hq inletLink outletLink selecting held waits hx
    have link : s.linked inlet outlet := ⟨distinct, inletLink, outletLink, selecting⟩
    refine ⟨fun o cause _ state => ?_, fun k hold state engine timer => ⟨fun phase sent last => ?_, fun phase => ?_⟩,
      fun state code ack => ?_, fun state code ack answer => ?_, fun hold state timer => ?_,
      fun state role glare code ack => ?_, fun state equipped => ⟨?_, ?_⟩⟩
    · rw [link.outOutcome held state, o.carried_eq]
    · rw [exec_pauseTimerExpiry (phase ▸ State.senderDue_some hold engine timer), link.pauseEnded held state sent last]
    · rw [exec_decadicSenderDigitWait (phase ▸ State.senderDue_some hold engine timer), link.outOutcome held state]
      rfl
    · exact link.earlyAnswer held hq waits (hx _) state code ack
    · exact link.clearBack held hq waits (hx _) state code ack answer
    · rw [exec_ackTimerExpiry (state ▸ State.supervisionDue_true hold timer), link.ackTimedOut held waits (hx _)]
    · exact link.yields held hq state role glare code ack
    · have releasable : (s.trunk outlet).state.releasable = true := by rcases state with h | h <;> rw [h] <;> rfl
      rw [exec_release, State.takeRelease_ok equipped releasable, link.releaseCall held waits (hx _)]
    · have inCall : (s.trunk outlet).state.inCall = true := by rcases state with h | h <;> rw [h] <;> rfl
      rw [exec_resetTrunk, State.takeResetTrunk_ok equipped, link.resetTrunk held waits (hx _) inCall]
  case inletEnds =>
    intro s x inlet outlet p distinct hp inletLink outletLink selecting outletWaits inletWaits hx
    have link : s.linked inlet outlet := ⟨distinct, inletLink, outletLink, selecting⟩
    have waits := State.outlet_waits outletWaits
    refine ⟨fun y hy => ⟨fun method code other => ?_, fun hold due => ?_⟩, fun equipped => ?_,
      fun c hold engine between wait => ?_, fun code cause l listed record unfinished equipped tone => ?_⟩
    · rw [State.decodeLine_fClear hp (by simp [selecting]) method code other, hy,
        link.clearForward outletWaits inletWaits hx hp]
    · rw [exec_clearRecognitionExpiry hold due, hy, link.clearForward outletWaits inletWaits hx hp]
    · rw [exec_resetTrunk, State.takeResetTrunk_ok equipped, link.resetTrunk_inlet outletWaits inletWaits hx]
    · rw [exec_decadicDigitWaitExpiry (State.receiverRunning_some hold engine) between wait, link.digitWaitEnded waits]
    · rw [exec_acceptDigits equipped selecting (by simp [record, unfinished]) (by simp [Trunk.outcomePending, tone])
        (rejection_listed listed), link.acceptNumber waits tone cause]
  case overflow =>
    intro s inlet outlet l d p q stored lost distinct hp hq inletLink record outletLink selecting room delete hstored hlost
    have link : s.linked inlet outlet := ⟨distinct, inletLink, outletLink, selecting⟩
    subst hstored
    refine ⟨fun c ended hold counting due engine pulses hended => ⟨fun full waits => ?_,
      fun y short host last hy z hz => ⟨fun k sender sends => ?_, fun k h decadic sender sends unit => ?_⟩⟩,
      fun c h f tone unit meaning listening pending more full waits => ?_⟩
    · rw [exec_digitEndTimerExpiry hold engine counting due pulses,
        link.digit_overflows record engine room delete full hlost waits, hended]
      rfl
    · rw [exec_digitEndTimerExpiry hold engine counting due pulses, hy,
        link.digit_starts record engine room hp host hold delete short last hz sender sends hq]
      rfl
    · rw [exec_digitEndTimerExpiry hold engine counting due pulses, hy,
        link.digit_sends record engine room hp host delete short hz decadic sender sends unit]
      rfl
    · exact link.tone_overflows record room delete full hlost waits tone unit meaning listening pending more

end Sys2Proof.Machine
end

section
/-! PROOFS. The breaks, makes and pauses of a decadic digit that is sent. -/

namespace Sys2Proof.Machine

section Sending

variable {s : State} {t : TrunkNo} {c : DecadicSender} {d : Digit} {p : Profile}

theorem exec_sendBreakExpiry (due : s.senderDue t .breaking = some c) :
    exec (.sendBreakExpiry t) s = .next (s.breakSent t c) := by
  change execSendBreakExpiry t s = _
  rw [execSendBreakExpiry, due]

theorem exec_sendMakeExpiry (due : s.senderDue t .making = some c) :
    exec (.sendMakeExpiry t) s = .next (s.makeSent t c) := by
  change execSendMakeExpiry t s = _
  rw [execSendMakeExpiry, due]

variable (hp : p = s.profiles.get (s.trunk t).profile)
include hp

/-- R74: a break starts with F-CLEAR. -/
theorem State.startBreak_eq (n : Nat) : s.startBreak t c n = s.mapTrunk t fun r => { r with
    sentCode := p.codes.fClear
    decadic := some (.sending { c with phase := .breaking, breaks := n, timer := some p.sendBreak }) } := by
  subst hp
  rw [State.startBreak, State.sendSignal, State.mapTrunk_mapTrunk]
  rfl

/-- R74: a break that has been sent is followed by a make with F-SEIZE. -/
theorem State.breakSent_eq : s.breakSent t c = s.mapTrunk t fun r => { r with
    sentCode := p.codes.fSeize
    decadic := some (.sending { c with phase := .making, breaks := c.breaks - 1, timer := some p.sendMake }) } := by
  subst hp
  rw [State.breakSent, State.sendSignal, State.setSender, State.mapTrunk_mapTrunk]
  rfl

/-- R74: a make before the last one is followed by the next break. -/
theorem State.makeSent_continues (more : 0 < c.breaks) : s.makeSent t c = s.mapTrunk t fun r => { r with
    sentCode := p.codes.fClear
    decadic := some (.sending { c with phase := .breaking, timer := some p.sendBreak }) } := by
  rw [State.makeSent, if_pos more, State.startBreak_eq hp]

/-- R74, R172: the last make ends the digit, which is entered in the record, and the pause follows. -/
theorem State.makeSent_digitEnds (last : c.breaks = 0)
    (sent : (s.trunk t).send.digits[(s.trunk t).send.pos - 1]? = some d) : s.makeSent t c = s.mapTrunk t fun r => { r with
      send := { r.send with pos := r.send.pos + 1 }
      record := r.record.map fun k => { k with digits := k.digits ++ [d] }
      decadic := some (.sending { c with phase := .pause, timer := some p.sendPause }) } := by
  have names : ∀ f : Trunk → Trunk, (f (s.trunk t)).profile = (s.trunk t).profile → (s.mapTrunk t f).profileOf t = p :=
    State.mapTrunk_profile hp
  rw [State.makeSent, if_neg (by omega), SendStore.current, sent]
  simp only [State.recordDigit, State.mapRecord, State.setSender, State.mapTrunk_mapTrunk]
  rw [names _ rfl]

/-- R74, R75: after the pause the next digit starts, with ten breaks for 0. -/
theorem State.pauseEnded_starts (next : (s.trunk t).send.digits[(s.trunk t).send.pos - 1]? = some d) :
    s.pauseEnded t c = s.mapTrunk t fun r => { r with
      sentCode := p.codes.fClear
      decadic := some (.sending { c with
        phase := .breaking, breaks := if d.val = 0 then 10 else d.val, timer := some p.sendBreak }) } := by
  rw [State.pauseEnded, SendStore.current, next]
  exact State.startBreak_eq hp (digitBreaks d)

/-- R75: after the pause an exhausted store without its end flag waits for a digit. -/
theorem State.pauseEnded_waits (exhausted : (s.trunk t).send.digits[(s.trunk t).send.pos - 1]? = none)
    (more : (s.trunk t).send.endFlag = false) : s.pauseEnded t c = s.mapTrunk t fun r => { r with
      decadic := some (.sending { c with phase := .waiting, timer := some (1000 * p.senderDigitWait) }) } := by
  subst hp
  rw [State.pauseEnded, SendStore.current, exhausted, more]
  rfl

end Sending

/-- Settles O25. -/
theorem decadicSendingTakesPulsesAndPauses : Obligations.DecadicSendingTakesPulsesAndPauses := by
  unfold Obligations.DecadicSendingTakesPulsesAndPauses
  intro s t c p hp hold engine timer
  have due : s.senderDue t c.phase = some c := State.senderDue_some hold engine timer
  refine ⟨fun phase => ?_, fun phase more => ?_, fun d phase last sent => ?_, fun d phase next => ?_,
    fun phase exhausted more => ?_⟩ <;> rw [phase] at due
  · rw [exec_sendBreakExpiry due, State.breakSent_eq hp]
  · rw [exec_sendMakeExpiry due, State.makeSent_continues hp more]
  · rw [exec_sendMakeExpiry due, State.makeSent_digitEnds hp last sent]
  · rw [exec_pauseTimerExpiry due, State.pauseEnded_starts hp next]
  · rw [exec_pauseTimerExpiry due, State.pauseEnded_waits hp exhausted more]

end Sys2Proof.Machine
end

section
/-! PROOFS. The end of a received decadic digit: stored and shown, judged, or rejected. -/

namespace Sys2Proof.Machine

/-! ### Pulse counts -/

/-- R81: a count of 1 to 10 pulses is that of a digit. -/
theorem exists_digit_of_pulses {n : Nat} (atLeast : 1 ≤ n) (atMost : n ≤ 10) :
    ∃ d : Digit, n = if d.val = 0 then 10 else d.val := by
  by_cases ten : n = 10
  · exact ⟨0, ten⟩
  · exact ⟨⟨n, by omega⟩, (if_neg (show ¬n = 0 by omega)).symm⟩

/-- R82: more than ten pulses are no digit. -/
theorem pulseDigit_beyond {n : Nat} (h : 10 < n) : pulseDigit n = none := by
  rw [pulseDigit, dif_neg (by omega), if_neg (by omega)]

/-! ### A trunk's receiving context -/

/-- R156, R157: a trunk whose number has been judged: the standing, and store and record shortened to a length given. -/
def Trunk.stands (st : Standing) (len : Option Nat) (r : Trunk) : Trunk := { r with
  standing := some st
  received := { r.received with digits := r.received.digits.take (len.getD r.received.digits.length) }
  record := r.record.map fun k => { k with digits := len.elim k.digits k.digits.take } }

/-- R81, R157: a digit that is stored before the number is judged. -/
theorem Trunk.stands_storesDigit (st : Standing) (len : Option Nat) (d : Digit) (r : Trunk) :
    Trunk.stands st len (Trunk.storesDigit d r) = { r with
      standing := some st
      received := { r.received with digits :=
        (r.received.digits ++ [d]).take (len.getD (r.received.digits.length + 1)) }
      record := r.record.map fun x => { x with digits := len.elim (x.digits ++ [d]) (x.digits ++ [d]).take } } := by
  rw [Trunk.stands, Trunk.storesDigit, List.length_append, Option.map_map]
  rfl

section Receiving

variable {s : State} {t : TrunkNo} {c : DecadicReceiver} {d : Digit} {p : Profile}

theorem State.receives_receives (c k : DecadicReceiver) :
    (s.mapTrunk t (Trunk.receives c)).mapTrunk t (Trunk.receives k) = s.mapTrunk t (Trunk.receives k) :=
  State.mapTrunk_mapTrunk _ _ _ _

theorem State.receives_mapReceiver (c : DecadicReceiver) (f : DecadicReceiver → DecadicReceiver) :
    (s.mapTrunk t (Trunk.receives c)).mapReceiver t f = s.mapTrunk t (Trunk.receives (f c)) := by
  rw [State.mapReceiver_at f (by rw [State.mapTrunk_trunk]; rfl), State.receives_receives]

theorem State.submit_mapReceiver (x : Option TrunkNo) (b : ReportBody) (f : DecadicReceiver → DecadicReceiver) :
    (s.submit x b).mapReceiver t f = (s.mapReceiver t f).submit x b := State.submit_mapTrunk _ _ _ _ _

/-- R82: a distortion is reported with the code accepted. -/
theorem State.reportDistortion_eq {code : LineCode} (accepted : (s.trunk t).lcr.accepted = some code) :
    s.reportDistortion t = s.submit (some t) (.lineAnomaly code .digitError) := by
  rw [State.reportDistortion, accepted]

/-- R82: a digit found distorted is reported and its pulses are discarded. -/
theorem State.rejectDigit_eq {code : LineCode} (accepted : (s.trunk t).lcr.accepted = some code) :
    s.rejectDigit t = (s.mapReceiver t fun c => { c with phase := .rejecting, pulses := 0 }).submit (some t)
      (.lineAnomaly code .digitError) := by
  rw [State.rejectDigit, State.reportDistortion_eq accepted, State.submit_mapReceiver]

/-! ### A trunk in no relay link -/

section Unlinked

variable (hl : (s.trunk t).link = none)
include hl

theorem State.overflowing_unlinked : s.overflowing t = none := by simp [State.overflowing, Trunk.outlet, hl]

theorem State.relayDigit_unlinked : s.relayDigit t d = s := by simp [State.relayDigit, Trunk.outlet, hl]

/-- R81, R84: a digit given in HOST mode is stored and shown to the host, and the inter-digit wait follows. -/
theorem State.giveDigit_host (engine : (s.trunk t).decadic = some (.receiving c))
    (room : (s.trunk t).received.digits.length < 24) (hp : p = s.profiles.get (s.trunk t).profile)
    (host : p.mode = .host) : s.giveDigit t d = ((s.mapTrunk t (Trunk.storesDigit d)).mapTrunk t (Trunk.receives { c.digitEnded with
      wait := some { kind := .interDigit, left := 1000 * p.interDigitWait } })).submit (some t)
        (.digitProgress (s.trunk t).received.category (s.trunk t).received.endReceived
          ((s.trunk t).received.digits ++ [d])) := by
  generalize hu : (s.mapTrunk t (Trunk.storesDigit d)).mapTrunk t (Trunk.receives c.digitEnded) = u
  have stored : u.trunk t = Trunk.receives c.digitEnded (Trunk.storesDigit d (s.trunk t)) := by
    rw [← hu, State.mapTrunk_trunk, State.mapTrunk_trunk]
  have unlinked : (u.trunk t).link = none := by rw [stored]; exact hl
  rw [(State.giveDigit_stored engine room hu.symm).2 (State.overflowing_unlinked unlinked) (hp ▸ host),
    State.relayDigit_unlinked unlinked,
    State.showProgress_afterDigit (p := p) (by rw [stored, ← hu]; exact hp) host (by rw [stored]; rfl), stored, ← hu,
    State.receives_receives]
  rfl

/-- R81, R156: a digit given in TABLE mode is stored, and the number is judged. -/
theorem State.giveDigit_table (engine : (s.trunk t).decadic = some (.receiving c))
    (room : (s.trunk t).received.digits.length < 24) (hp : p = s.profiles.get (s.trunk t).profile)
    (table : p.mode = .table) : s.giveDigit t d =
      (((s.mapTrunk t (Trunk.storesDigit d)).mapTrunk t (Trunk.receives c.digitEnded)).runAnalysis t).afterDigit t := by
  generalize hu : (s.mapTrunk t (Trunk.storesDigit d)).mapTrunk t (Trunk.receives c.digitEnded) = u
  have record : u.trunk t = Trunk.receives c.digitEnded (Trunk.storesDigit d (s.trunk t)) := by
    rw [← hu, State.mapTrunk_trunk, State.mapTrunk_trunk]
  have unlinked : (u.trunk t).link = none := by rw [record]; exact hl
  have mode : (u.profileOf t).mode = .table := by rw [State.profileOf, record, ← hu, ← table, hp]; rfl
  have ended : (s.mapReceiver t fun c => { c with phase := .between, pulses := 0, digitEnd := none }) =
      s.mapTrunk t (Trunk.receives c.digitEnded) := State.mapReceiver_at _ engine
  have stored : (s.mapTrunk t (Trunk.receives c.digitEnded)).storeDigit t d = u := by
    rw [State.storeDigit_eq, State.mapTrunk_mapTrunk, ← hu, State.mapTrunk_mapTrunk]
    rfl
  unfold State.giveDigit
  dsimp only
  rw [ended, if_neg (by rw [State.mapTrunk_trunk]; exact Nat.not_le.mpr room), stored,
    State.overflowing_unlinked unlinked]
  dsimp only
  rw [State.relayDigit_unlinked unlinked, mode]

/-- R81: a digit for which the receive store has no room rejects the number. -/
theorem State.giveDigit_full (full : 24 ≤ (s.trunk t).received.digits.length) :
    s.giveDigit t d = (s.mapReceiver t fun c => { c with phase := .between, pulses := 0, digitEnd := none }).inOutcome t
      (.reject .congestion) := by
  have received (f : DecadicReceiver → DecadicReceiver) :
      ((s.mapReceiver t f).trunk t).received = (s.trunk t).received := by
    rw [State.mapReceiver, State.mapTrunk_trunk]
  unfold State.giveDigit
  dsimp only
  rw [received, if_pos (show Config.storeRoom ≤ _ from full),
    State.rejectIn_unlinked _ _ _ (State.mapReceiver_link _ |>.trans hl)]

/-- R84: what follows a digit that number analysis has judged. -/
theorem State.afterDigit_table {st : Standing} (engine : (s.trunk t).decadic = some (.receiving c))
    (hp : p = s.profiles.get (s.trunk t).profile) (table : p.mode = .table) (standing : (s.trunk t).standing = some st)
    (state : (s.trunk t).state = .inSelecting) :
    s.afterDigit t = match (generalizing := false) st with
      | .complete => s.endsIn t .complete
      | .refused => s.endsIn t (.reject .unobtainable)
      | .openNumber => s.mapTrunk t (Trunk.receives { c with
        wait := some { kind := .openNumber, left := 1000 * p.openNumberWait } })
      | .undecided => s.mapTrunk t (Trunk.receives { c with
        wait := some { kind := .interDigit, left := 1000 * p.interDigitWait } }) := by
  have names : s.profileOf t = p := hp.symm
  have wait : s.nextWait t = if st = .openNumber then { kind := .openNumber, left := 1000 * p.openNumberWait }
      else { kind := .interDigit, left := 1000 * p.interDigitWait } := by
    simp only [State.nextWait, names, table, standing, true_and, Option.some.injEq, seconds]
  rw [State.afterDigit, names, table, standing]
  cases st with
  | complete => exact (State.completeIn_unlinked hl).trans (s.inOutcome_eq t _ state)
  | refused => exact (s.rejectIn_unlinked t _ hl).trans (s.inOutcome_eq t _ state)
  | openNumber => rw [wait]; exact State.mapReceiver_at _ engine
  | undecided => rw [wait]; exact State.mapReceiver_at _ engine

end Unlinked

/-- R156, R157: number analysis sets the standing, and shortens store and record where it gives a length. -/
theorem State.runAnalysis_eq {st : Standing} {len : Option Nat}
    (found : analyse s.analysis.toList (s.trunk t).group (s.profileOf t).defaultOutcome (s.trunk t).received.digits =
      (st, len)) : s.runAnalysis t = s.mapTrunk t (Trunk.stands st len) := by
  rw [State.runAnalysis, found]
  cases len with
  | none =>
    refine State.mapTrunk_congr _ _ ?_
    simp [Trunk.stands]
  | some n => rfl

end Receiving

/-! ### The digit-end timer -/

section DigitEnd

variable {s : State} {t : TrunkNo} {c : DecadicReceiver} {d : Digit} {p : Profile}

/-- R81, R82: the digit-end timer's expiry, by the phase. -/
theorem exec_digitEndTimerExpiry_due (hold : s.hwi.alignment ≠ .hold)
    (engine : (s.trunk t).decadic = some (.receiving c)) (due : c.digitEnd = some 0) :
    exec (.digitEndTimerExpiry t) s = .next (s.digitEndExpired t c) := by
  change execDigitEndTimerExpiry t s = _
  rw [execDigitEndTimerExpiry, State.receiverRunning_some hold engine]
  exact congrArg Host.Outcome.next (if_pos (by rw [due]; rfl))

/-- R82, R84: the wait that a rejected digit restores. -/
theorem State.waitAgain_eq (hp : p = s.profiles.get (s.trunk t).profile) :
    s.waitAgain t = if (s.trunk t).received.digits = [] then
        { kind := .firstDigit, left := 1000 * p.firstDigitWait }
      else if p.mode = .table ∧ (s.trunk t).standing = some .openNumber then
        { kind := .openNumber, left := 1000 * p.openNumberWait }
      else { kind := .interDigit, left := 1000 * p.interDigitWait } := by
  subst hp
  rfl

/-- R82: the end of a rejected digit. -/
theorem State.endRejected_eq (engine : (s.trunk t).decadic = some (.receiving c)) :
    s.endRejected t = s.mapTrunk t (Trunk.receives { c.digitEnded with wait := some (s.waitAgain t) }) :=
  State.mapReceiver_at (fun c => { c.digitEnded with wait := some (s.waitAgain t) }) engine

/-- R82: the end of a digit of more than ten pulses. -/
theorem State.endDigit_beyond {code : LineCode} (engine : (s.trunk t).decadic = some (.receiving c))
    (beyond : 10 < c.pulses) (accepted : (s.trunk t).lcr.accepted = some code) :
    s.endDigit t c = (s.mapTrunk t (Trunk.receives { c.digitEnded with wait := some (s.waitAgain t) })).submit (some t)
      (.lineAnomaly code .digitError) := by
  have wait : (s.submit (some t) (.lineAnomaly code .digitError)).waitAgain t = s.waitAgain t := by
    rw [State.waitAgain_eq rfl, State.waitAgain_eq rfl, State.submit_trunk, State.submit_profiles]
  rw [State.endDigit, pulseDigit_beyond beyond]
  dsimp only
  rw [State.reportDistortion_eq accepted, State.endRejected_eq (by rw [State.submit_trunk]; exact engine), wait,
    State.submit_mapTrunk]

/-- R58, R81: the number is rejected when its digit has no room. -/
theorem State.giveDigit_rejects (hl : (s.trunk t).link = none) (state : (s.trunk t).state = .inSelecting)
    (full : 24 ≤ (s.trunk t).received.digits.length) : s.rejectedIn (s.giveDigit t d) t .congestion := by
  rw [State.giveDigit_full hl full]
  refine (State.inOutcome_outcomeIn state (s.mapReceiver_inner t _) (fun k hk => ?_) ?_ ?_ ⟨rfl, rfl⟩
    (.reject .congestion)).1
  · rw [State.mapReceiver, State.mapTrunk_trunk_ne _ _ hk]
  · rw [State.mapReceiver, State.mapTrunk_trunk]
  · rw [State.mapReceiver, State.mapTrunk_trunk, Option.map_map]
    refine Option.map_congr fun k _ => ?_
    cases k <;> rfl

/-- R81, R84, R156: a digit that is stored and judged, with what the standing gives. -/
theorem State.giveDigit_judged {st : Standing} {len : Option Nat} {ds : List Digit} {y : DecadicReceiver → State}
    (hl : (s.trunk t).link = none) (engine : (s.trunk t).decadic = some (.receiving c))
    (state : (s.trunk t).state = .inSelecting) (hp : p = s.profiles.get (s.trunk t).profile) (table : p.mode = .table)
    (hds : ds = (s.trunk t).received.digits) (room : ds.length < 24)
    (found : analyse s.analysis.toList (s.trunk t).group p.defaultOutcome (ds ++ [d]) = (st, len))
    (hy : ∀ k, y k = s.mapTrunk t fun r => Trunk.receives k.digitEnded (Trunk.stands st len (Trunk.storesDigit d r))) :
    s.giveDigit t d = match (generalizing := false) st with
      | .complete => (y c).endsIn t .complete
      | .refused => (y c).endsIn t (.reject .unobtainable)
      | .openNumber => y { c with wait := some { kind := .openNumber, left := 1000 * p.openNumberWait } }
      | .undecided => y { c with wait := some { kind := .interDigit, left := 1000 * p.interDigitWait } } := by
  have receives (k : DecadicReceiver) : (y c).mapTrunk t (Trunk.receives k.digitEnded) = y k := by
    rw [hy, hy, State.mapTrunk_mapTrunk]
    rfl
  have record : (y c).trunk t =
      Trunk.receives c.digitEnded (Trunk.stands st len (Trunk.storesDigit d (s.trunk t))) := by
    rw [hy, State.mapTrunk_trunk]
  have names : p = (y c).profiles.get ((y c).trunk t).profile := by
    rw [record, hy]
    exact hp
  have judged : ((s.mapTrunk t (Trunk.storesDigit d)).mapTrunk t (Trunk.receives c.digitEnded)).runAnalysis t = y c := by
    rw [State.runAnalysis_eq (st := st) (len := len), State.mapTrunk_mapTrunk, State.mapTrunk_mapTrunk, hy]
    · rfl
    · rw [State.profileOf, State.mapTrunk_trunk, State.mapTrunk_trunk, ← found, hds, hp]
      rfl
  rw [State.giveDigit_table hl engine (hds ▸ room) hp table, judged,
    State.afterDigit_table (c := c.digitEnded) (st := st) (by rw [record]; exact hl) (by rw [record]; rfl) names
      table (by rw [record]; rfl) (by rw [record]; exact state)]
  cases st with
  | complete => rfl
  | refused => rfl
  | openNumber => exact receives { c with wait := some { kind := .openNumber, left := 1000 * p.openNumberWait } }
  | undecided => exact receives { c with wait := some { kind := .interDigit, left := 1000 * p.interDigitWait } }

end DigitEnd

end Sys2Proof.Machine
end

section
/-! PROOFS. The breaks and makes that a decadic trunk decodes. -/

namespace Sys2Proof.Machine

/-! ### Codes handed to the decadic engine -/

section Decoding

variable {s : State} {t : TrunkNo} {p : Profile} (hp : p = s.profiles.get (s.trunk t).profile)
  (method : p.method = .decadic)
  (state : (s.trunk t).state ∈ [TrunkState.inSelecting, .inWaitAnswer, .inAnswered, .inClearback, .inRejected])

/-- R37: the signals listened for in a state of an incoming call. -/
theorem listened_inCall {role : Role} {st : TrunkState}
    (state : st ∈ [TrunkState.inSelecting, .inWaitAnswer, .inAnswered, .inClearback, .inRejected]) :
    listened role st = [(.fSeize, .nothing), (.fClear, .clearForward)] := by
  simp only [List.mem_cons, List.not_mem_nil, or_false] at state
  rcases state with rfl | rfl | rfl | rfl | rfl <;> rfl

include hp method state

/-- R36: a signal decoded on a decadic trunk in a state of an incoming call goes to the decadic engine. -/
theorem State.decodeLine_hands {code : LineCode} {sig : LineSignal} {a : LineAction}
    (decoded : s.decoded t = some (code, some (sig, a))) :
    s.decodeLine t = if sig = .fClear then (s.noteIdle t sig).handBreak t else (s.noteIdle t sig).handMake t := by
  have hands : (s.trunk t).state.watchesBreaks = true ∧ ((s.noteIdle t sig).profileOf t).method = .decadic := by
    refine ⟨?_, by rw [State.noteIdle_profile, ← hp, method]⟩
    simp only [List.mem_cons, List.not_mem_nil, or_false] at state
    rcases state with h | h | h | h | h <;> rw [h] <;> rfl
  unfold State.decodeLine
  split
  case h_1 idle => simp [idle] at state
  case h_2 clearing => simp [clearing] at state
  · simp only [decoded, if_pos hands]

/-- R36: F-CLEAR is a break. -/
theorem State.decodeLine_break (code : (s.trunk t).lcr.accepted = some p.codes.fClear)
    (distinct : p.codes.fSeize ≠ p.codes.fClear) : s.decodeLine t = s.handBreak t := by
  have decoded : s.decoded t = some (p.codes.fClear, some (.fClear, .clearForward)) :=
    State.decoded_listed (before := [(.fSeize, .nothing)]) (after := []) code (listened_inCall state)
      (by rw [← hp]; simpa [SendCodes.of] using distinct) (by rw [← hp]; rfl)
  rw [State.decodeLine_hands hp method state decoded, if_pos rfl, State.noteIdle_eq, if_neg (by simp)]

/-- R36: F-SEIZE is a make. -/
theorem State.decodeLine_make (code : (s.trunk t).lcr.accepted = some p.codes.fSeize) :
    s.decodeLine t = s.handMake t := by
  have decoded : s.decoded t = some (p.codes.fSeize, some (.fSeize, .nothing)) :=
    State.decoded_listed (before := []) code (listened_inCall state) (by simp) (by rw [← hp]; rfl)
  rw [State.decodeLine_hands hp method state decoded, if_neg (by simp), State.noteIdle_fSeize]

end Decoding

/-! ### Breaks at a receiving context -/

/-- R78: a receiving context whose line has been broken, with a clear-recognition timer of the given length. -/
def DecadicReceiver.atBreak (c : DecadicReceiver) (clearRecognition : Nat) : DecadicReceiver :=
  { c with line := .broken, since := 0, clearRec := some clearRecognition }

/-- R78: a receiving context whose line has been made, with a digit-end timer of the given length. -/
def DecadicReceiver.atMake (c : DecadicReceiver) (digitEnd : Nat) : DecadicReceiver :=
  { c with line := .made, since := 0, clearRec := none, digitEnd := some digitEnd }

/-- R79: a receiving context in which a digit begins. -/
def DecadicReceiver.digitBegun (c : DecadicReceiver) : DecadicReceiver :=
  { c with phase := .counting, pulses := 0, wait := none, digitEnd := none }

section Breaks

variable {s : State} {t : TrunkNo} {c : DecadicReceiver} {p : Profile}

/-- R79: a digit begins at a receiving context between digits. -/
theorem State.receives_beginDigit (k : DecadicReceiver) (between : k.phase = .between) (more : k.complete = false) :
    (s.mapTrunk t (Trunk.receives k)).beginDigit t = s.mapTrunk t (Trunk.receives k.digitBegun) := by
  rw [State.beginDigit, State.receives_mapReceiver, if_pos ⟨between, more⟩]
  rfl

theorem State.submit_beginDigit (x : Option TrunkNo) (b : ReportBody) :
    (s.submit x b).beginDigit t = (s.beginDigit t).submit x b := State.submit_mapReceiver _ _ _

variable (engine : (s.trunk t).decadic = some (.receiving c))
include engine

/-- R78: a break on a line that is broken. -/
theorem State.handBreak_repeated (line : c.line = .broken) : s.handBreak t = s := by
  unfold State.handBreak
  rw [engine]
  exact if_pos line

variable (hp : p = s.profiles.get (s.trunk t).profile) (line : c.line = .made)
include hp line

/-- R85: with the number complete a break is only timed. -/
theorem State.handBreak_complete (complete : c.complete = true) :
    s.handBreak t = s.mapTrunk t (Trunk.receives (c.atBreak p.clearRecognition)) := by
  subst hp
  unfold State.handBreak
  rw [engine]
  dsimp only
  rw [if_neg (by simp [line]), if_pos complete, State.mapReceiver_at _ engine]
  rfl

/-- R79, R82: what a break does, by the phase and the length of the make before it. -/
theorem State.handBreak_counts (more : c.complete = false) {x : State}
    (hx : x = s.mapTrunk t (Trunk.receives (c.atBreak p.clearRecognition))) :
    (c.phase = .between → s.handBreak t = x.beginDigit t) ∧
    (c.phase = .counting → s.handBreak t =
      if c.since < p.makeMin then (x.rejectDigit t).mapReceiver t fun c => { c with digitEnd := none }
      else if p.digitEnd ≤ c.since then (x.endDigit t c).beginDigit t
      else x.mapReceiver t fun c => { c with digitEnd := none }) ∧
    (c.phase = .rejecting → s.handBreak t =
      if p.digitEnd ≤ c.since then (x.endRejected t).beginDigit t
      else x.mapReceiver t fun c => { c with digitEnd := none }) := by
  subst hp
  have timed : (s.mapReceiver t fun c => { c with
      line := .broken, since := 0, clearRec := some (s.profileOf t).clearRecognition }) = x := by
    rw [State.mapReceiver_at _ engine, hx]
    rfl
  unfold State.handBreak
  rw [engine]
  dsimp only
  rw [if_neg (by simp [line]), if_neg (by simp [more]), timed]
  refine ⟨?_, ?_, ?_⟩ <;> intro phase <;> rw [phase] <;> rfl

section Counting

variable (more : c.complete = false)
include more

/-- R79, R82: a break begins a digit between digits, and after a rejected digit whose last make was a digit end. -/
theorem State.handBreak_begins (phase : c.phase = .between ∨ (c.phase = .rejecting ∧ p.digitEnd ≤ c.since)) :
    s.handBreak t = s.mapTrunk t (Trunk.receives (c.atBreak p.clearRecognition).digitBegun) := by
  obtain ⟨between, -, rejecting⟩ := State.handBreak_counts engine hp line more rfl
  rcases phase with phase | ⟨phase, long⟩
  · rw [between phase, State.receives_beginDigit _ (by exact phase) (by exact more)]
  · rw [rejecting phase, if_pos long, State.endRejected_eq (by rw [State.mapTrunk_trunk]; rfl), State.receives_receives,
      State.receives_beginDigit _ (by rfl) (by exact more)]
    rfl

/-- R79, R82: a break after a make within a digit goes on with the digit. -/
theorem State.handBreak_goesOn (short : c.since < p.digitEnd)
    (phase : c.phase = .rejecting ∨ (c.phase = .counting ∧ p.makeMin ≤ c.since)) :
    s.handBreak t = s.mapTrunk t (Trunk.receives { c.atBreak p.clearRecognition with digitEnd := none }) := by
  obtain ⟨-, counting, rejecting⟩ := State.handBreak_counts engine hp line more rfl
  rcases phase with phase | ⟨phase, long⟩
  · rw [rejecting phase, if_neg (Nat.not_le.mpr short), State.receives_mapReceiver]
  · rw [counting phase, if_neg (Nat.not_lt.mpr long), if_neg (Nat.not_le.mpr short), State.receives_mapReceiver]

/-- R79, R82: a break after a make that is too short rejects the digit. -/
theorem State.handBreak_rejects (phase : c.phase = .counting) (short : c.since < p.makeMin) {code : LineCode}
    (accepted : (s.trunk t).lcr.accepted = some code) :
    s.handBreak t = (s.mapTrunk t (Trunk.receives { c.atBreak p.clearRecognition with
      phase := .rejecting, pulses := 0, digitEnd := none })).submit (some t) (.lineAnomaly code .digitError) := by
  obtain ⟨-, counting, -⟩ := State.handBreak_counts engine hp line more rfl
  rw [counting phase, if_pos short,
    State.rejectDigit_eq (by rw [State.mapTrunk_trunk]; exact accepted), State.submit_mapReceiver,
    State.receives_mapReceiver, State.receives_mapReceiver]

/-- R79, R81: a break after a digit end gives the digit before it and begins the next. -/
theorem State.handBreak_ends {d : Digit} (hl : (s.trunk t).link = none) (phase : c.phase = .counting)
    (atLeast : p.makeMin ≤ c.since) (long : p.digitEnd ≤ c.since) (pulses : c.pulses = if d.val = 0 then 10 else d.val)
    (room : (s.trunk t).received.digits.length < 24) (host : p.mode = .host) :
    s.handBreak t = ((s.mapTrunk t (Trunk.receives (c.atBreak p.clearRecognition).digitBegun)).mapTrunk t
      (Trunk.storesDigit d)).submit (some t) (.digitProgress (s.trunk t).received.category (s.trunk t).received.endReceived
        ((s.trunk t).received.digits ++ [d])) := by
  generalize hx : s.mapTrunk t (Trunk.receives (c.atBreak p.clearRecognition)) = x
  have record : x.trunk t = Trunk.receives (c.atBreak p.clearRecognition) (s.trunk t) := by
    rw [← hx, State.mapTrunk_trunk]
  have names : p = x.profiles.get (x.trunk t).profile := by
    rw [record, ← hx]
    exact hp
  have given : x.endDigit t c = x.giveDigit t d := by rw [State.endDigit, pulses, pulseDigit_breaks]
  obtain ⟨-, counting, -⟩ := State.handBreak_counts engine hp line more hx.symm
  rw [counting phase, if_neg (Nat.not_lt.mpr atLeast), if_pos long, given,
    State.giveDigit_host (c := c.atBreak p.clearRecognition) (by rw [record]; exact hl) (by rw [record]; rfl)
      (by rw [record]; exact room) names host,
    State.submit_beginDigit, State.receives_beginDigit _ (by rfl) (by exact more), record, ← hx]
  simp only [State.mapTrunk_mapTrunk]
  rfl

end Counting

end Breaks

/-! ### Makes at a receiving context -/

section Makes

variable {s : State} {t : TrunkNo} {c : DecadicReceiver} {p : Profile}

/-- R61: the end of the register work gives up the receiving context, whatever it is. -/
theorem State.clearForward_receives (hl : (s.trunk t).link = none) (hq : ∀ e ∈ s.callQueue, e.trunk ≠ t)
    (k : DecadicReceiver) : (s.mapTrunk t (Trunk.receives k)).clearForward t = s.clearForward t := by
  have quits : (s.mapTrunk t (Trunk.receives k)).endRegisterWork t (.reject .congestion) = s.quitsWork t id := by
    rw [State.endRegisterWork_quits (s := s.mapTrunk t (Trunk.receives k)) _ (by rw [State.mapTrunk_trunk]; exact hl)
      (.inr hq)]
    exact State.mapTrunk_quitsWork (f := Trunk.receives k) (g := id) (h := id) rfl rfl
  have names := State.quitsWork_names (s := s) (t := t) rfl
  rw [State.clearForward_eq quits names, State.clearForward_eq (State.endRegisterWork_quits _ hl (.inr hq)) names]

variable (engine : (s.trunk t).decadic = some (.receiving c))
include engine

/-- R78: a make on a line that is made. -/
theorem State.handMake_repeated (line : c.line = .made) : s.handMake t = s := by
  unfold State.handMake
  rw [engine]
  exact if_pos line

variable (line : c.line = .broken)
include line

/-- R83, R85: with the number complete a make ends the timing of the break, or is a clear-forward. -/
theorem State.handMake_complete (complete : c.complete = true) :
    s.handMake t = if c.clearRec = some 0 then s.clearForward t
      else s.mapTrunk t (Trunk.receives { c with line := .made, since := 0, clearRec := none }) := by
  unfold State.handMake
  rw [engine]
  dsimp only
  rw [if_neg (by simp [line]), if_pos complete, State.mapReceiver_at _ engine]
  simp only [timerDue, beq_iff_eq]

variable (hp : p = s.profiles.get (s.trunk t).profile) (more : c.complete = false)
include hp more

/-- R80, R83: what a make does, by the length of the break before it and the phase. -/
theorem State.handMake_counts {x : State} (hx : x = s.mapTrunk t (Trunk.receives (c.atMake p.digitEnd))) :
    s.handMake t = if p.clearRecognition ≤ c.since then x.clearForward t
      else if c.phase = .counting then x.judgeBreak t c.since
      else x := by
  subst hp
  unfold State.handMake
  rw [engine]
  dsimp only
  rw [if_neg (by simp [line]), if_neg (by simp [more]), State.mapReceiver_at _ engine, hx]
  rfl

/-- R83: a make after a break that has stood the clear recognition time is a clear-forward. -/
theorem State.handMake_clears (hl : (s.trunk t).link = none) (hq : ∀ e ∈ s.callQueue, e.trunk ≠ t)
    (long : p.clearRecognition ≤ c.since) : s.handMake t = s.clearForward t := by
  rw [State.handMake_counts engine line hp more rfl, if_pos long, State.clearForward_receives hl hq]

variable (short : c.since < p.clearRecognition)
include short

/-- R80: a make in a digit that is being rejected is only timed. -/
theorem State.handMake_rejecting (phase : c.phase = .rejecting) :
    s.handMake t = s.mapTrunk t (Trunk.receives (c.atMake p.digitEnd)) := by
  rw [State.handMake_counts engine line hp more rfl, if_neg (Nat.not_le.mpr short), if_neg (by simp [phase])]

variable (phase : c.phase = .counting)
include phase

/-- R80: a make in a digit judges the break before it. -/
theorem State.handMake_judges {x : State} (hx : x = s.mapTrunk t (Trunk.receives (c.atMake p.digitEnd))) :
    s.handMake t = if c.since < p.breakMin ∨ p.breakMax < c.since then x.rejectDigit t
      else x.mapReceiver t fun c => { c with pulses := min 255 (c.pulses + 1) } := by
  have names : x.profileOf t = p := by
    rw [hx, State.profileOf, State.mapTrunk_trunk, hp]
    rfl
  rw [State.handMake_counts engine line hp more hx, if_neg (Nat.not_le.mpr short), if_pos phase, State.judgeBreak, names]

/-- R80: a break within the receive window is a pulse. -/
theorem State.handMake_pulse (atLeast : p.breakMin ≤ c.since) (atMost : c.since ≤ p.breakMax) :
    s.handMake t = s.mapTrunk t (Trunk.receives { c.atMake p.digitEnd with pulses := min 255 (c.pulses + 1) }) := by
  rw [State.handMake_judges engine line hp more short phase rfl, if_neg (by omega), State.receives_mapReceiver]
  rfl

/-- R80, R82: a break outside the receive window rejects the digit. -/
theorem State.handMake_rejects (outside : c.since < p.breakMin ∨ p.breakMax < c.since) {code : LineCode}
    (accepted : (s.trunk t).lcr.accepted = some code) :
    s.handMake t = (s.mapTrunk t (Trunk.receives { c.atMake p.digitEnd with
      phase := .rejecting, pulses := 0 })).submit (some t) (.lineAnomaly code .digitError) := by
  rw [State.handMake_judges engine line hp more short phase rfl, if_pos outside,
    State.rejectDigit_eq (by rw [State.mapTrunk_trunk]; exact accepted), State.receives_mapReceiver]

end Makes

/-! ### The clear watch -/

section Watch

variable {s : State} {t : TrunkNo} {w : ClearWatch} {p : Profile} (engine : (s.trunk t).decadic = some (.watching w))
include engine

/-- R86: a break in the clear watch is timed, and one that repeats the line condition changes nothing. -/
theorem State.handBreak_watching (hp : p = s.profiles.get (s.trunk t).profile) :
    s.handBreak t = if w.line = .broken then s else s.mapTrunk t fun r => { r with
      decadic := some (.watching { line := .broken, clearRec := some p.clearRecognition }) } := by
  subst hp
  unfold State.handBreak
  rw [engine]
  rfl

/-- R86: a make in the clear watch ends the timing of the break, or is a clear-forward. -/
theorem State.handMake_watching : s.handMake t = if w.line = .made then s
    else if w.clearRec = some 0 then s.clearForward t
    else s.mapTrunk t fun r => { r with decadic := some (.watching { line := .made, clearRec := none }) } := by
  unfold State.handMake
  rw [engine]
  simp only [timerDue, beq_iff_eq]

end Watch

/-! ### The statement on received digits -/

/-- Settles O27: part by part, the digit-end timer, the codes decoded in IN-SELECTING, and the clear watch. -/
theorem decadicDigitEnds : Obligations.DecadicDigitEnds := by
  unfold Obligations.DecadicDigitEnds
  refine ⟨?digitEnd, ?codes, ?watch⟩
  case digitEnd =>
    intro s t c p hp hold engine due
    refine ⟨fun d counting pulses room hl host => ?_,
      fun d ds st len y counting pulses hl table hds room state found hy => ?_,
      fun counting atLeast atMost full state hl => ?_,
      fun w hw => ⟨fun code counting beyond accepted => ?_, fun rejecting => ?_⟩⟩
    · rw [exec_digitEndTimerExpiry hold engine counting due pulses, State.giveDigit_host hl engine room hp host,
        State.mapTrunk_mapTrunk]
      rfl
    · have stored (k : DecadicReceiver) : y k = s.mapTrunk t fun r =>
          Trunk.receives k.digitEnded (Trunk.stands st len (Trunk.storesDigit d r)) := by
        subst hds
        rw [hy]
        refine State.mapTrunk_congr _ _ ?_
        rw [Trunk.stands_storesDigit]
        cases len <;> rfl
      have given := State.giveDigit_judged hl engine state hp table hds room found stored
      exact (exec_digitEndTimerExpiry hold engine counting due pulses).trans
        (congrArg Host.Outcome.next (given.trans (by cases st <;> rfl)))
    · obtain ⟨d, pulses⟩ := exists_digit_of_pulses atLeast atMost
      exact ⟨_, exec_digitEndTimerExpiry hold engine counting due pulses, State.giveDigit_rejects hl state full⟩
    · rw [exec_digitEndTimerExpiry_due hold engine due, State.digitEndExpired, counting]
      dsimp only
      rw [State.endDigit_beyond engine beyond accepted, State.waitAgain_eq hp, ← hw]
      rfl
    · rw [exec_digitEndTimerExpiry_due hold engine due, State.digitEndExpired, rejecting]
      dsimp only
      rw [State.endRejected_eq engine, State.waitAgain_eq hp, ← hw]
      rfl
  case codes =>
    intro s t c p becomes hp method distinct state engine hl hbecomes
    have becomes_eq (k : DecadicReceiver) : becomes k = s.mapTrunk t (Trunk.receives k) := hbecomes k
    have inCall : (s.trunk t).state ∈
        [TrunkState.inSelecting, .inWaitAnswer, .inAnswered, .inClearback, .inRejected] := by simp [state]
    refine ⟨fun b code hb => ?_, fun m code hm => ?_⟩
    · obtain rfl : b = c.atBreak p.clearRecognition := hb
      rw [State.decodeLine_break hp method inCall code distinct]
      simp only [becomes_eq]
      exact ⟨State.handBreak_repeated engine, State.handBreak_complete engine hp,
        State.handBreak_begins engine hp, State.handBreak_goesOn engine hp,
        fun line more phase short => State.handBreak_rejects engine hp line more phase short code,
        fun d line more phase atLeast long pulses room host =>
          State.handBreak_ends engine hp line more hl phase atLeast long pulses room host⟩
    · obtain rfl : m = c.atMake p.digitEnd := hm
      rw [State.decodeLine_make hp method inCall code]
      simp only [becomes_eq]
      refine ⟨State.handMake_repeated engine, fun line more => State.handMake_pulse engine line hp more,
        fun line more short phase outside => State.handMake_rejects engine line hp more short phase outside code,
        fun line more => State.handMake_rejecting engine line hp more, fun hq line clears => ?_,
        fun line complete running => ?_⟩
      · rcases clears with ⟨more, long⟩ | ⟨complete, stood⟩
        · rw [State.handMake_clears engine line hp more hl hq long]
          exact State.clearForward_clears hl hq
        · rw [State.handMake_complete engine line complete, if_pos stood]
          exact State.clearForward_clears hl hq
      · rw [State.handMake_complete engine line complete, if_neg running]
  case watch =>
    intro s t w p becomes hp method distinct state engine hbecomes
    have inCall : (s.trunk t).state ∈ [TrunkState.inSelecting, .inWaitAnswer, .inAnswered, .inClearback, .inRejected] :=
      List.mem_cons_of_mem _ state
    simp only [hbecomes]
    refine ⟨fun code => ?_, fun code => ?_⟩
    · rw [State.decodeLine_break hp method inCall code distinct, State.handBreak_watching engine hp]
    · rw [State.decodeLine_make hp method inCall code, State.handMake_watching engine]
      refine ⟨fun line => if_pos line, fun line running => ?_, fun line stood hl hq => ?_⟩
      · rw [if_neg (by simp [line]), if_neg running]
      · rw [if_neg (by simp [line]), if_pos stood]
        exact State.clearForward_clears hl hq

end Sys2Proof.Machine
end

section
/-! PROOFS. The test requests of the host: MEASURE. -/

namespace Sys2Proof.Machine

/-! ### The unit that a test request is granted -/

/-- R90, R95: outside hold a test request is granted the lowest-numbered free unit. -/
theorem State.measuringGrant_eq_some {s : State} {u : UnitNo} (running : s.hwi.alignment ≠ .hold)
    (free : (s.unit u).status = .free) (lowest : ∀ v < u, (s.unit v).status ≠ .free) : s.measuringGrant = some u := by
  rw [State.measuringGrant, State.inHold_false running]
  exact State.freeUnitNo_eq_some free lowest

/-- R95: in hold, or where no unit is free, a test request is granted none. -/
theorem State.measuringGrant_eq_none {s : State} (h : s.hwi.alignment = .hold ∨ ∀ u, (s.unit u).status ≠ .free) :
    s.measuringGrant = none := by
  unfold State.measuringGrant
  rcases h with hold | busy
  · exact if_pos (by simp [State.inHold, hold])
  · rw [State.freeUnitNo_eq_none busy, ite_self]

/-! ### The judgement of a MEASURE -/

/-- R95: a trunk that holds no unit and is in no wait queue is not engaged. -/
theorem State.engaged_eq_false {s : State} {t : TrunkNo} (unit : (s.trunk t).unit = none)
    (units : ∀ u asked done, (s.unit u).status ≠ .measuring t asked done) (calls : ∀ e ∈ s.callQueue, e.trunk ≠ t)
    (tests : ∀ r ∈ s.testQueue, r.trunk ≠ t) : s.engaged t = false := by
  have none_waits : (s.callQueue.any fun e => e.trunk == t) = false :=
    List.any_eq_false.mpr fun e he same => calls e he (beq_iff_eq.mp same)
  simp only [State.engaged, unit, State.measured_eq_false units tests, none_waits, Option.isSome_none, Bool.or_self]

section Judging

variable {s : State} {t : TrunkNo} (n : Byte) (equipped : (s.trunk t).role ≠ .unequipped) (idle : s.engaged t = false)
include equipped idle

/-- R95: a test request of an equipped trunk that is not engaged turns on the pool and the queue alone. -/
theorem State.judgeMeasure_eq : s.judgeMeasure [byte t.val, n] =
    if s.measuringGrant.isSome || s.testQueue.length < Config.testRoom then .ok t else .error .noRoom := by
  have trunk : trunkOf (byteAt [byte t.val, n] 0) = some t := trunkOf_val t
  have role : ((s.trunk t).role != .unequipped) = true := bne_iff_ne.mpr equipped
  simp only [State.judgeMeasure, check_bind, fieldOf_bind_some trunk, role, idle]
  rfl

/-- R95, R96: a MEASURE that a free unit or a place in the queue can take. -/
theorem State.measure_accepts (room : (s.measuringGrant.isSome || s.testQueue.length < Config.testRoom) = true)
    {blocks : Nat} (clamped : blocks = min 50 (max 1 n.toNat)) : exec (.measure [byte t.val, n]) s =
      .next ((s.testRequest t blocks).1.sendReply 0x20 (if blocks = n.toNat then .ok else .okClamped)
        (s.testRequest t blocks).2) := by
  change Host.Outcome.next (s.takeMeasure [byte t.val, n]) = _
  rw [State.takeMeasure, State.judgeMeasure_eq n equipped idle, if_pos room, clamped]
  rfl

/-- R90, R95: a MEASURE that takes a unit. -/
theorem State.measure_granted {u : UnitNo} (grant : s.measuringGrant = some u) {blocks : Nat}
    (clamped : blocks = min 50 (max 1 n.toNat)) : exec (.measure [byte t.val, n]) s =
      .next ((s.grantTest u t blocks).sendReply 0x20 (if blocks = n.toNat then .ok else .okClamped)
        [0, byte u.val]) := by
  rw [State.measure_accepts n equipped idle (by rw [grant]; rfl) clamped, State.testRequest, grant]

/-- R95, R96: a MEASURE that joins the test wait queue. -/
theorem State.measure_queued (grant : s.measuringGrant = none) (room : s.testQueue.length < 4) {blocks : Nat}
    (clamped : blocks = min 50 (max 1 n.toNat)) : exec (.measure [byte t.val, n]) s =
      .next ((s.withTestQueue (s.testQueue ++ [{ trunk := t, blocks := blocks, left := 10000 }])).sendReply 0x20
        (if blocks = n.toNat then .ok else .okClamped) [1, byte (s.testQueue.length + 1)]) := by
  rw [State.measure_accepts n equipped idle (by rw [grant]; exact decide_eq_true room) clamped, State.testRequest,
    grant]
  rfl

/-- R95: a MEASURE that finds neither a unit nor a place. -/
theorem State.measure_noRoom (grant : s.measuringGrant = none) (full : 4 ≤ s.testQueue.length) :
    exec (.measure [byte t.val, n]) s = .next (s.sendReply 0x20 .noRoom []) := by
  have noPlace : (s.measuringGrant.isSome || s.testQueue.length < Config.testRoom) = false := by
    rw [grant]
    exact decide_eq_false (Nat.not_lt.mpr full)
  change Host.Outcome.next (s.takeMeasure [byte t.val, n]) = _
  rw [State.takeMeasure, State.judgeMeasure_eq n equipped idle, noPlace]
  rfl

end Judging

/-- Settles O51, by the grant that the pool and hold allow and the room of the test wait queue. -/
theorem measureIsGrantedOrQueued : Obligations.MeasureIsGrantedOrQueued := by
  unfold Obligations.MeasureIsGrantedOrQueued
  intro s t n blocks clamped equipped unit units calls tests
  have idle : s.engaged t = false := State.engaged_eq_false unit units calls tests
  refine ⟨fun u running free lowest => ?granted, fun noUnit room => ?queued, fun noUnit full => ?refused⟩
  case granted =>
    exact State.measure_granted n equipped idle (State.measuringGrant_eq_some running free lowest) clamped
  case queued => exact State.measure_queued n equipped idle (State.measuringGrant_eq_none noUnit) room clamped
  case refused => exact State.measure_noRoom n equipped idle (State.measuringGrant_eq_none noUnit) full

end Sys2Proof.Machine
end

section
/-! PROOFS. The block decision of a signalling unit. -/

namespace Sys2Proof.Machine

/-! ### The ranking of a group's powers -/

theorem insertRanked_perm (x : Nat × Nat) (l : List (Nat × Nat)) : (insertRanked x l).Perm (x :: l) := by
  induction l with
  | nil => exact .refl _
  | cons y l ih =>
    unfold insertRanked
    split_ifs
    · exact .refl _
    · exact (ih.cons y).trans (.swap x y l)

/-- R110: the greatest power first. -/
def Ranked (l : List (Nat × Nat)) : Prop := l.Pairwise fun x y => y.1 ≤ x.1

theorem Ranked.le_head {x y : Nat × Nat} {l : List (Nat × Nat)} (h : Ranked (x :: l)) (hy : y ∈ x :: l) :
    y.1 ≤ x.1 := by
  rcases List.mem_cons.mp hy with rfl | later
  · exact le_rfl
  · exact List.rel_of_pairwise_cons h later

theorem Ranked.insertRanked {l : List (Nat × Nat)} (x : Nat × Nat) (h : Ranked l) : Ranked (insertRanked x l) := by
  induction l with
  | nil => exact List.pairwise_singleton _ _
  | cons y l ih =>
    unfold Machine.insertRanked
    split_ifs with greater
    · exact List.pairwise_cons.mpr ⟨fun z hz => (h.le_head hz).trans greater.le, h⟩
    · refine List.pairwise_cons.mpr ⟨fun z hz => ?_, ih h.of_cons⟩
      rcases List.mem_cons.mp ((insertRanked_perm x l).mem_iff.mp hz) with rfl | later
      · exact not_lt.mp greater
      · exact List.rel_of_pairwise_cons h later

theorem foldl_insertRanked (xs acc : List (Nat × Nat)) (h : Ranked acc) :
    (xs.foldl (fun acc x => insertRanked x acc) acc).Perm (xs ++ acc) ∧
      Ranked (xs.foldl (fun acc x => insertRanked x acc) acc) := by
  induction xs generalizing acc with
  | nil => exact ⟨.refl _, h⟩
  | cons x xs ih =>
    obtain ⟨same, ranked⟩ := ih _ (h.insertRanked x)
    exact ⟨same.trans (((insertRanked_perm x acc).append_left xs).trans List.perm_middle), ranked⟩

theorem rankPowers_perm (l : List Nat) : (rankPowers l).Perm l.zipIdx := by
  have same := (foldl_insertRanked l.zipIdx [] .nil).1
  rwa [List.append_nil] at same

theorem rankPowers_ranked (l : List Nat) : Ranked (rankPowers l) := (foldl_insertRanked l.zipIdx [] .nil).2

theorem mem_rankPowers {l : List Nat} {p k : Nat} : (p, k) ∈ rankPowers l ↔ k < l.length ∧ l.getD k 0 = p := by
  rw [(rankPowers_perm l).mem_iff, List.mk_mem_zipIdx_iff_getElem?, List.getElem?_eq_some_iff]
  constructor
  · rintro ⟨inside, value⟩
    exact ⟨inside, by rw [List.getD_eq_getElem _ _ inside, value]⟩
  · rintro ⟨inside, value⟩
    exact ⟨inside, by rw [← value, List.getD_eq_getElem _ _ inside]⟩

theorem rankPowers_numbers_nodup (l : List Nat) : ((rankPowers l).map Prod.snd).Nodup := by
  rw [((rankPowers_perm l).map Prod.snd).nodup_iff, List.zipIdx_map_snd]
  exact List.nodup_range'

/-- R110: the frequency numbers `a`, `b` and `c` have the three greatest powers, in this order. -/
structure GreatestThree (l : List Nat) (a b c : Nat) : Prop where
  inside : a < l.length ∧ b < l.length ∧ c < l.length
  distinct : a ≠ b ∧ c ≠ a ∧ c ≠ b
  first : ∀ k < l.length, l.getD k 0 ≤ l.getD a 0
  second : ∀ k < l.length, k ≠ a → l.getD k 0 ≤ l.getD b 0
  third : ∀ k < l.length, k ≠ a → k ≠ b → l.getD k 0 ≤ l.getD c 0

/-- R110: the ranking of three powers or more begins with the three greatest. -/
theorem rankPowers_greatestThree {l : List Nat} (three : 3 ≤ l.length) : ∃ a b c rest, GreatestThree l a b c ∧
    rankPowers l = (l.getD a 0, a) :: (l.getD b 0, b) :: (l.getD c 0, c) :: rest := by
  have length : (rankPowers l).length = l.length := by rw [(rankPowers_perm l).length_eq, List.length_zipIdx]
  have numbers := rankPowers_numbers_nodup l
  have ranked := rankPowers_ranked l
  have members : ∀ p k, (p, k) ∈ rankPowers l ↔ k < l.length ∧ l.getD k 0 = p := fun _ _ => mem_rankPowers
  rcases hr : rankPowers l with _ | ⟨⟨p, a⟩, _ | ⟨⟨q, b⟩, _ | ⟨⟨r, c⟩, rest⟩⟩⟩
  iterate 3
    rw [← length, hr] at three
    simp at three
  rw [hr] at numbers ranked members
  obtain ⟨insideA, rfl⟩ := (members p a).mp (by simp)
  obtain ⟨insideB, rfl⟩ := (members q b).mp (by simp)
  obtain ⟨insideC, rfl⟩ := (members r c).mp (by simp)
  have unlike : ∀ {k m : Nat}, k ≠ m → (l.getD k 0, k) ≠ (l.getD m 0, m) := fun h e => h (congrArg Prod.snd e)
  have mem : ∀ k < l.length, (l.getD k 0, k) ∈ (l.getD a 0, a) :: (l.getD b 0, b) :: (l.getD c 0, c) :: rest :=
    fun k hk => (members _ k).mpr ⟨hk, rfl⟩
  have memB := fun k hk (notA : k ≠ a) => List.mem_of_ne_of_mem (unlike notA) (mem k hk)
  have memC := fun k hk notA (notB : k ≠ b) => List.mem_of_ne_of_mem (unlike notB) (memB k hk notA)
  refine ⟨a, b, c, rest, ⟨⟨insideA, insideB, insideC⟩, ?_, fun k hk => ?_, fun k hk notA => ?_,
    fun k hk notA notB => ?_⟩, rfl⟩
  · simp only [List.map_cons, List.nodup_cons, List.mem_cons, not_or] at numbers
    obtain ⟨⟨ab, ac, -⟩, ⟨bc, -⟩, -⟩ := numbers
    exact ⟨ab, Ne.symm ac, Ne.symm bc⟩
  · exact ranked.le_head (mem k hk)
  · exact Ranked.le_head ranked.of_cons (memB k hk notA)
  · exact Ranked.le_head ranked.of_cons.of_cons (memC k hk notA notB)

/-! ### The four tests -/

/-- R111: in a decided pair's block every other power is smaller than both of the pair's. -/
theorem decidesPair_greater {amin energy : Nat} {l : List Nat} {i j : Nat} (h : decidesPair amin energy l i j) {k : Nat}
    (inside : k < l.length) (ni : k ≠ i) (nj : k ≠ j) : l.getD k 0 < l.getD i 0 ∧ l.getD k 0 < l.getD j 0 := by
  obtain ⟨-, -, -, twist, others, purity, energetic⟩ := h
  have third := others k inside ni nj
  omega

/-- R110: a decided pair has the two greatest powers. -/
theorem GreatestThree.pair_unique {l : List Nat} {a b c : Nat} (g : GreatestThree l a b c) {amin energy i j : Nat}
    (h : decidesPair amin energy l i j) : (i, j) = (min a b, max a b) := by
  obtain ⟨insideA, insideB, -⟩ := g.inside
  have ⟨rising, insideJ, _⟩ := h
  have isA : a = i ∨ a = j := by
    by_contra! other
    exact absurd (g.first i (by omega)) (not_le.mpr (decidesPair_greater h insideA other.1 other.2).1)
  have isB : b = i ∨ b = j := by
    by_contra! other
    have greater := decidesPair_greater h insideB other.1 other.2
    rcases isA with rfl | rfl
    · exact absurd (g.second j insideJ (by omega)) (not_le.mpr greater.2)
    · exact absurd (g.second i (by omega) (by omega)) (not_le.mpr greater.1)
  have ab := g.distinct.1
  rw [Prod.mk.injEq]
  omega

/-- R111: the tests on the three greatest powers are those on the pair of the two greatest. -/
theorem GreatestThree.passesTests_iff {l : List Nat} {a b c : Nat} (g : GreatestThree l a b c) (amin energy : Nat) :
    passesTests amin (l.getD a 0) (l.getD b 0) (l.getD c 0) energy = true ↔
      decidesPair amin energy l (min a b) (max a b) := by
  obtain ⟨insideA, insideB, insideC⟩ := g.inside
  obtain ⟨ab, ca, cb⟩ := g.distinct
  have order : l.getD b 0 ≤ l.getD a 0 := g.first b insideB
  have ⟨lo, hi⟩ : min (l.getD (min a b) 0) (l.getD (max a b) 0) = l.getD b 0 ∧
      max (l.getD (min a b) 0) (l.getD (max a b) 0) = l.getD a 0 := by
    rcases le_total a b with h | h
    · simp only [min_eq_left h, max_eq_right h, min_eq_right order, max_eq_left order, and_self]
    · simp only [min_eq_right h, max_eq_left h, min_eq_left order, max_eq_right order, and_self]
  have rising : min a b < max a b := by omega
  have inside : max a b < l.length := by omega
  have thirdTone : 16 * l.getD c 0 ≤ l.getD b 0 ↔
      ∀ k < l.length, k ≠ min a b → k ≠ max a b → 16 * l.getD k 0 ≤ l.getD b 0 := by
    constructor
    · intro h k hk ni nj
      have below := g.third k hk (by omega) (by omega)
      omega
    · exact fun h => h c insideC (by omega) (by omega)
  unfold passesTests decidesPair
  dsimp only
  rw [lo, hi, ← thirdTone]
  simp [rising, inside, and_assoc]

/-- R110, R111: a block decides the pair that passes the four tests. -/
theorem decidePair_eq_some_iff {amin energy : Nat} {l : List Nat} (three : 3 ≤ l.length) (i j : Nat) :
    decidePair amin energy l = some (i, j) ↔ decidesPair amin energy l i j := by
  obtain ⟨a, b, c, rest, g, ranking⟩ := rankPowers_greatestThree three
  have tested : decidePair amin energy l =
      if passesTests amin (l.getD a 0) (l.getD b 0) (l.getD c 0) energy then some (min a b, max a b) else none := by
    unfold decidePair
    rw [ranking]
  rw [tested, Option.ite_none_right_eq_some, g.passesTests_iff, Option.some_inj]
  constructor
  · rintro ⟨passes, pair⟩
    obtain ⟨rfl, rfl⟩ := Prod.mk.inj pair
    exact passes
  · intro h
    have pair := g.pair_unique h
    obtain ⟨rfl, rfl⟩ := Prod.mk.inj pair
    exact ⟨h, rfl⟩

/-! ### The signal of a pair -/

/-- Where each signal of a list is the first of its pair, a block decides a signal where it decides that signal's pair. -/
theorem decideSignal_eq_some_iff {α : Type} {signals : List α} {pair : α → Nat × Nat} {wrap : α → ToneSignal}
    (own : ∀ f, signals.find? (pair · == pair f) = some f) {amin energy : Nat} {l : List Nat} (three : 3 ≤ l.length)
    {x : ToneSignal} : ((decidePair amin energy l).bind fun p => (signals.find? (pair · == p)).map wrap) = some x ↔
      ∃ f, x = wrap f ∧ decidesPair amin energy l (pair f).1 (pair f).2 := by
  simp only [Option.bind_eq_some_iff, Option.map_eq_some_iff, ← decidePair_eq_some_iff three]
  constructor
  · rintro ⟨p, decided, f, found, rfl⟩
    obtain rfl : pair f = p := by simpa using List.find?_some found
    exact ⟨f, rfl, decided⟩
  · rintro ⟨f, rfl, decided⟩
    exact ⟨pair f, decided, f, own f, rfl⟩

/-- R106: a receiver decides on the six forward frequencies. -/
theorem decideBlock_receiver {amin : Nat} {b : EndedBlock} {x : ToneSignal} :
    decideBlock .receiver amin b = some x ↔ ∃ f : ForwardSignal, x = .forward f ∧
      decidesPair amin b.energy (b.powers.toList.take 6) f.pair.1 f.pair.2 :=
  decideSignal_eq_some_iff (fun f => by cases f <;> rfl) (by simp)

/-- R106: a sender decides on the four backward frequencies. -/
theorem decideBlock_sender {amin : Nat} {b : EndedBlock} {x : ToneSignal} :
    decideBlock .sender amin b = some x ↔ ∃ f : BackwardSignal, x = .backward f ∧
      decidesPair amin b.energy (b.powers.toList.drop 6) f.pair.1 f.pair.2 :=
  decideSignal_eq_some_iff (fun f => by cases f <;> rfl) (by simp)

/-! ### The recognition record -/

section Recognition
variable {r : Recognition} {x : ToneSignal} {d : Option ToneSignal}

theorem Recognition.decide_repeated (idle : r.recognised = none) (hd : d = some x) (same : r.previous = .decided x) :
    r.decide d = ({ r with recognised := some x, count := 0 }, some (.recognised x)) := by
  simp [Recognition.decide, idle, same, hd]

theorem Recognition.decide_new (idle : r.recognised = none) (hd : d = some x) (differs : r.previous ≠ .decided x) :
    r.decide d = ({ r with previous := .decided x }, none) := by
  simp [Recognition.decide, idle, differs, hd]

theorem Recognition.decide_nothing (idle : r.recognised = none) (hd : d = none) :
    r.decide d = ({ r with previous := .decidedNone }, none) := by
  simp [Recognition.decide, idle, hd]

theorem Recognition.decide_continued (on : r.recognised = some x) (hd : d = some x) :
    r.decide d = ({ r with count := 0 }, none) := by
  simp [Recognition.decide, on, hd]

theorem Recognition.decide_missedOnce (on : r.recognised = some x) (missed : d ≠ some x) (first : r.count = 0) :
    r.decide d = ({ r with count := 1 }, none) := by
  simp [Recognition.decide, on, missed, first]

theorem Recognition.decide_missedTwice (on : r.recognised = some x) (missed : d ≠ some x) (second : 1 ≤ r.count) :
    r.decide d = ({ recognised := none, previous := .cleared, count := 0 }, some (.ceased x)) := by
  have full : ¬ r.count + 1 < 2 := by omega
  simp [Recognition.decide, on, missed, full]

end Recognition

/-! ### The tone block event of a signalling unit -/

section Signalling
variable {s : State} {n : UnitNo} {b : EndedBlock} {t : TrunkNo} {role : UnitRole} {d : Option ToneSignal}
  {r : Recognition}

/-- The unit once its block has been taken and its recognition record is as given. -/
def State.decidesBlock (s : State) (n : UnitNo) (r : Recognition) : State :=
  s.mapUnit n fun u => { u with ended := none, recognition := r }

theorem State.blockEnded_signals (signalling : (s.unit n).status = .signalling t role)
    (aligned : s.hwi.alignment ≠ .hold) : s.blockEnded n b = (s.takesBlock n).decideUnitBlock n t role b := by
  unfold State.blockEnded
  dsimp only
  rw [if_neg (by simpa [State.inHold] using aligned), State.mapUnit_unit]
  simp only [signalling]
  rfl

theorem State.takesBlock_decides (s : State) (n : UnitNo) (t : TrunkNo) (role : UnitRole) (b : EndedBlock)
    {e : Option ToneEvent} (h : (s.unit n).recognition.decide
      (decideBlock role (s.profiles.get (s.trunk t).profile).minAmplitude b) = (r, e)) :
    (s.takesBlock n).decideUnitBlock n t role b =
      e.elim (s.decidesBlock n r) ((s.decidesBlock n r).toneEvent t) := by
  have record : ((s.takesBlock n).unit n).recognition = (s.unit n).recognition := by
    rw [State.takesBlock, State.mapUnit_unit]
  have profile : (s.takesBlock n).profileOf t = s.profiles.get (s.trunk t).profile := rfl
  unfold State.decideUnitBlock
  rw [record, profile, h]
  dsimp only
  rw [State.takesBlock, State.mapUnit_mapUnit]
  cases e <;> rfl

/-- R113, R114: a decided block leaves the record of its decision, and the event it makes goes to the engine. -/
theorem exec_toneBlockEvent_signalling (ended : (s.unit n).ended = some b)
    (signalling : (s.unit n).status = .signalling t role) (aligned : s.hwi.alignment ≠ .hold)
    (decided : d = decideBlock role (s.profiles.get (s.trunk t).profile).minAmplitude b) {e : Option ToneEvent}
    (h : (s.unit n).recognition.decide d = (r, e)) :
    exec (.toneBlockEvent n) s = .next (e.elim (s.decidesBlock n r) ((s.decidesBlock n r).toneEvent t)) := by
  subst decided
  rw [execToneBlockEvent_ended ended, State.blockEnded_signals signalling aligned, State.takesBlock_decides _ _ _ _ _ h]

end Signalling

/-- R112: the pairs of the forward signals. -/
theorem forwardSignal_pairs : ∀ x ∈ [(ForwardSignal.ft1, 0, 1), (.ft2, 0, 2), (.ft3, 0, 3), (.ft4, 0, 4), (.ft5, 0, 5),
    (.ft6, 1, 2), (.ft7, 1, 3), (.ft8, 1, 4), (.ft9, 1, 5), (.ft10, 2, 3), (.ft11, 2, 4), (.ft12, 2, 5), (.ft13, 3, 4),
    (.ft14, 3, 5), (.ft15, 4, 5)], x.1.pair = x.2 := by decide

/-- R112: the pairs of the backward signals. -/
theorem backwardSignal_pairs : ∀ x ∈ [(BackwardSignal.bt1, 0, 1), (.bt2, 0, 2), (.bt3, 0, 3), (.bt4, 1, 2),
    (.bt5, 1, 3), (.bt6, 2, 3)], x.1.pair = x.2 := by decide

/-- Settles O31. The decision is that of the ranking's first two numbers, by role; the six cases of a decided block are
the equations of the recognition record. -/
theorem recognitionAndCessation : Obligations.RecognitionAndCessation := by
  unfold Obligations.RecognitionAndCessation
  intro s n b t role d ended signalling aligned decided
  have event := fun {r e} => exec_toneBlockEvent_signalling (r := r) (e := e) ended signalling aligned decided
  refine ⟨?receiver, ?sender, fun x idle hd same => ?repeated, fun x idle hd differs => ?new, fun idle hd => ?nothing,
    fun y on hd => ?continued, fun y on missed first => ?missedOnce, fun y on missed second => ?missedTwice⟩
  case receiver =>
    rintro rfl
    refine ⟨fun x hx => ?_, fun x hx => ?_⟩
    · obtain ⟨f, backward, -⟩ := decideBlock_receiver.mp (decided.symm.trans hx)
      cases backward
    · rw [decided, decideBlock_receiver, ← forwardSignal_pairs x hx]
      simp
  case sender =>
    rintro rfl
    refine ⟨fun x hx => ?_, fun x hx => ?_⟩
    · obtain ⟨f, forward, -⟩ := decideBlock_sender.mp (decided.symm.trans hx)
      cases forward
    · rw [decided, decideBlock_sender, ← backwardSignal_pairs x hx]
      simp
  case repeated => exact event (Recognition.decide_repeated idle hd same)
  case new => exact event (Recognition.decide_new idle hd differs)
  case nothing => exact event (Recognition.decide_nothing idle hd)
  case continued => exact event (Recognition.decide_continued on hd)
  case missedOnce => exact event (Recognition.decide_missedOnce on missed first)
  case missedTwice => exact event (Recognition.decide_missedTwice on missed second)

end Sys2Proof.Machine
end

section
/-! PROOFS. The speech code: compression chooses the nearest code. -/

namespace Sys2Proof.Machine

/-! ### The magnitudes of the codes -/

/-- R103: the next magnitude is the next mantissa of the same exponent, or the first of the next exponent. -/
theorem codeMagnitude_lt_succ (k : Nat) : codeMagnitude k < codeMagnitude (k + 1) := by
  have big : 0 < 2 ^ (k / 16) := Nat.two_pow_pos _
  unfold codeMagnitude
  by_cases last : k % 16 = 15
  · have exponent : (k + 1) / 16 = k / 16 + 1 := by omega
    have mantissa : (k + 1) % 16 = 0 := by omega
    rw [exponent, mantissa, last, pow_succ]
    omega
  · have exponent : (k + 1) / 16 = k / 16 := by omega
    have mantissa : (k + 1) % 16 = k % 16 + 1 := by omega
    rw [exponent, mantissa, Nat.mul_add, Nat.add_right_comm, Nat.add_mul (2 * (k % 16) + 33)]
    have room : 33 * 2 ^ (k / 16) ≤ (2 * (k % 16) + 33) * 2 ^ (k / 16) := Nat.mul_le_mul_right _ (by omega)
    omega

theorem codeMagnitude_strictMono : StrictMono codeMagnitude := strictMono_nat_of_lt_succ codeMagnitude_lt_succ

/-! ### The nearest magnitude -/

/-- R104: how far the magnitude of `k` is from `m`. -/
def codeDistance (m k : Nat) : Nat := ((codeMagnitude k : Int) - m).natAbs

/-- R104: of two codes the one nearer to `m`, and the first where they lie equally near. -/
def nearer (m best k : Nat) : Nat := if codeDistance m k < codeDistance m best then k else best

theorem nearestCode_eq (m : Nat) : nearestCode m = (List.range 128).foldl (nearer m) 0 := rfl

/-- `k` is the first of the codes 0 to `n` that no other of them is nearer to `m` than. -/
def FirstNearest (m n k : Nat) : Prop :=
  k ≤ n ∧ ∀ j ≤ n, codeDistance m k ≤ codeDistance m j ∧ (codeDistance m k = codeDistance m j → k ≤ j)

theorem FirstNearest.succ {m n k : Nat} (h : FirstNearest m n k) : FirstNearest m (n + 1) (nearer m k (n + 1)) := by
  obtain ⟨inside, first⟩ := h
  unfold nearer
  split_ifs with closer
  · refine ⟨le_rfl, fun j hj => ?_⟩
    rcases Nat.le_add_one_iff.mp hj with earlier | rfl
    · have beaten := (first j earlier).1
      exact ⟨by omega, fun _ => by omega⟩
    · exact ⟨le_rfl, fun _ => le_rfl⟩
  · refine ⟨by omega, fun j hj => ?_⟩
    rcases Nat.le_add_one_iff.mp hj with earlier | rfl
    · exact first j earlier
    · exact ⟨by omega, fun _ => by omega⟩

theorem foldl_nearer_firstNearest (m n : Nat) : FirstNearest m n ((List.range (n + 1)).foldl (nearer m) 0) := by
  induction n with
  | zero =>
    have only : (List.range 1).foldl (nearer m) 0 = 0 := if_neg (lt_irrefl _)
    rw [only]
    refine ⟨le_rfl, fun j hj => ?_⟩
    obtain rfl : j = 0 := by omega
    exact ⟨le_rfl, fun _ => le_rfl⟩
  | succ n ih =>
    rw [List.range_succ, List.foldl_append]
    exact ih.succ

theorem nearestCode_firstNearest (m : Nat) : FirstNearest m 127 (nearestCode m) := foldl_nearer_firstNearest m 127

theorem nearestCode_lt (m : Nat) : nearestCode m < 128 := Nat.lt_succ_of_le (nearestCode_firstNearest m).1

/-- R104: a magnitude of the code is nearest to itself alone. -/
theorem nearestCode_codeMagnitude {k : Nat} (h : k < 128) : nearestCode (codeMagnitude k) = k := by
  have own : codeDistance (codeMagnitude k) k = 0 := by simp [codeDistance]
  have least := ((nearestCode_firstNearest (codeMagnitude k)).2 k (by omega)).1
  refine codeMagnitude_strictMono.injective ?_
  unfold codeDistance at own least
  omega

/-! ### Signs -/

/-- The code of a magnitude's bits with the sign bit set or clear. -/
def signedCode (negative : Bool) (k : Nat) : Byte := BitVec.ofNat 8 (if negative then 128 + k else k)

theorem signedCode_toNat {k : Nat} (negative : Bool) (h : k < 128) :
    (signedCode negative k).toNat = if negative then 128 + k else k := by
  unfold signedCode
  rw [BitVec.toNat_ofNat, Nat.mod_eq_of_lt]
  split_ifs <;> omega

theorem signBit_eq (code : Byte) : code.getLsbD 7 = decide (128 ≤ code.toNat) := by
  rw [show (7 : Nat) = 8 - 1 from rfl, ← BitVec.msb_eq_getLsbD_last, BitVec.msb_eq_decide]

theorem signedCode_sign (code : Byte) : signedCode (code.getLsbD 7) (code.toNat % 128) = code := by
  have small := code.isLt
  refine BitVec.eq_of_toNat_eq ?_
  rw [signedCode_toNat _ (by omega), signBit_eq]
  split_ifs with h <;> simp only [decide_eq_true_eq] at h <;> omega

/-- R103: the sample of a code, by its sign and the bits of its magnitude. -/
theorem expand_signedCode {k : Nat} (negative : Bool) (h : k < 128) :
    expand (signedCode negative k) = if negative then -(codeMagnitude k : Int) else codeMagnitude k := by
  have bits : (signedCode negative k).toNat % 128 = k := by
    rw [signedCode_toNat _ h]
    split_ifs <;> omega
  have sign : (signedCode negative k).getLsbD 7 = negative := by
    rw [signBit_eq, signedCode_toNat _ h]
    cases negative
    · exact decide_eq_false (Nat.not_le.mpr h)
    · exact decide_eq_true (Nat.le_add_right 128 k)
  unfold expand
  rw [bits, sign]

theorem expand_natAbs (code : Byte) : (expand code).natAbs = codeMagnitude (code.toNat % 128) := by
  unfold expand
  dsimp only
  split_ifs <;> simp

theorem compress_eq (v : Int) : compress v =
    if nearestCode v.natAbs = 0 then 0 else signedCode (decide (v < 0)) (nearestCode v.natAbs) := by
  simp [compress, signedCode]

/-- R104: compression gives the nearest magnitude the value's sign. -/
theorem expand_compress (v : Int) : expand (compress v) =
    if v < 0 then -(codeMagnitude (nearestCode v.natAbs) : Int) else codeMagnitude (nearestCode v.natAbs) := by
  rw [compress_eq]
  split_ifs with zero negative negative
  · rw [zero]; rfl
  · rw [zero]; rfl
  · rw [expand_signedCode _ (nearestCode_lt _), if_pos (decide_eq_true negative)]
  · rw [expand_signedCode _ (nearestCode_lt _), if_neg (by simpa using negative)]

/-- A value is as far from its compressed form as its magnitude is from the nearest one. -/
theorem compress_error (v : Int) : (expand (compress v) - v).natAbs = codeDistance v.natAbs (nearestCode v.natAbs) := by
  rw [expand_compress]
  unfold codeDistance
  split_ifs <;> omega

/-- A value is at least as far from a code's sample as its magnitude is from the code's. -/
theorem codeDistance_le_error (v : Int) (code : Byte) :
    codeDistance v.natAbs (code.toNat % 128) ≤ (expand code - v).natAbs := by
  unfold codeDistance
  rw [← expand_natAbs]
  omega

/-! ### Compression -/

theorem compress_nearest (v : Int) (code : Byte) : (expand (compress v) - v).natAbs ≤ (expand code - v).natAbs ∧
    ((expand (compress v) - v).natAbs = (expand code - v).natAbs →
      (expand (compress v)).natAbs ≤ (expand code).natAbs) := by
  obtain ⟨least, first⟩ := (nearestCode_firstNearest v.natAbs).2 (code.toNat % 128) (by omega)
  have farther := codeDistance_le_error v code
  have magnitude : (expand (compress v)).natAbs = codeMagnitude (nearestCode v.natAbs) := by
    rw [expand_compress]
    split_ifs <;> simp
  rw [compress_error, magnitude, expand_natAbs]
  exact ⟨least.trans farther, fun tie => codeMagnitude_strictMono.monotone (first (by omega))⟩

theorem compress_ne_negativeZero (v : Int) : compress v ≠ 0x80 := by
  rw [compress_eq]
  split_ifs with zero
  · decide
  · intro h
    have value := congrArg BitVec.toNat h
    rw [signedCode_toNat _ (nearestCode_lt _)] at value
    have lt := nearestCode_lt v.natAbs
    have eighty : (0x80 : Byte).toNat = 128 := rfl
    split_ifs at value <;> omega

/-- The sample of a code of a magnitude other than 0 has the code's sign. -/
theorem expand_sign {code : Byte} (h : code.toNat % 128 ≠ 0) : decide (expand code < 0) = code.getLsbD 7 := by
  have positive : 0 < codeMagnitude (code.toNat % 128) := codeMagnitude_strictMono (Nat.pos_of_ne_zero h)
  unfold expand
  cases code.getLsbD 7
  · exact decide_eq_false (by simp)
  · exact decide_eq_true (by simpa using positive)

/-- R104: compression gives back every expanded code but the second code of zero. -/
theorem compress_expand (code : Byte) : compress (expand code) = if code = 0x80 then 0 else code := by
  have small : code.toNat % 128 < 128 := Nat.mod_lt _ (by decide)
  rw [compress_eq, expand_natAbs, nearestCode_codeMagnitude small]
  by_cases zero : code.toNat % 128 = 0
  · have whole : code = signedCode (code.getLsbD 7) 0 := by rw [← zero, signedCode_sign]
    rw [if_pos zero, whole]
    cases code.getLsbD 7 <;> rfl
  · have kept : code ≠ 0x80 := by
      rintro rfl
      exact zero rfl
    rw [if_neg zero, if_neg kept, expand_sign zero, signedCode_sign]

theorem expand_eq_sign_mul (code : Byte) : expand code =
    (if code.getLsbD 7 then -1 else 1) *
      (((2 * (code.toNat % 16) + 33) * 2 ^ (code.toNat % 128 / 16) - 33 : Nat) : Int) := by
  have mantissa : code.toNat % 128 % 16 = code.toNat % 16 := Nat.mod_mod_of_dvd _ (by decide)
  unfold expand codeMagnitude
  rw [mantissa]
  split_ifs
  · exact (neg_one_mul _).symm
  · exact (one_mul _).symm

/-- Settles O59, by the first nearest of the 128 magnitudes and their strict order. -/
theorem compressionChoosesTheNearestCode : Obligations.CompressionChoosesTheNearestCode := by
  unfold Obligations.CompressionChoosesTheNearestCode
  exact ⟨expand_eq_sign_mul, compress_expand, compress_ne_negativeZero, compress_nearest⟩

end Sys2Proof.Machine
end

section
/-! PROOFS. The interlocked tone sender. -/

namespace Sys2Proof.Machine

/-! ### The items of a sender -/

/-- R124, R172: a trunk whose answered digit is counted as sent and entered in the call record. -/
def Trunk.countsSent (pos : Nat) (d : Digit) (r : Trunk) : Trunk := { r with
  send := { r.send with pos := pos + 1 }
  record := r.record.map fun k => { k with digits := k.digits ++ [d] } }

theorem digitSignal_table : (List.finRange 10).map digitSignal =
    [.ft10, .ft1, .ft2, .ft3, .ft4, .ft5, .ft6, .ft7, .ft8, .ft9] := by decide

section Sender

variable {s : State} {t : TrunkNo} {c : ToneSender} {h : HeldUnit} {d : Digit} {pos : Nat}

theorem State.mapTrunk_mapUnit (s : State) (t : TrunkNo) (v : UnitNo) (g : Trunk → Trunk) (f : ToneUnit → ToneUnit) :
    (s.mapTrunk t g).mapUnit v f = (s.mapUnit v f).mapTrunk t g := rfl

/-- R122: an item sent after a change of the trunk's record that keeps its profile. -/
theorem State.sends_mapTrunk (g : Trunk → Trunk) (same : (g (s.trunk t)).profile = (s.trunk t).profile) (v : UnitNo)
    (i : SendItem) (f : ForwardSignal) (last : Option Nat) : (s.mapTrunk t g).sends t v i f last =
      (s.mapUnit v fun u => { u with
        generation := some
          { sig := .forward f, amplitude := (s.profiles.get (s.trunk t).profile).sendAmplitude, n := 0 } }).mapTrunk t
        fun r => { g r with
          tone := some (.sender
            { phase := .sending, item := some i, lastSent := last, noted := none
              timer := some
                { kind := .interlock, left := 1000 * (s.profiles.get (s.trunk t).profile).interlock } }) } := by
  unfold State.sends
  dsimp only
  rw [State.mapTrunk_trunk, same, State.mapTrunk_mapUnit, State.mapTrunk_mapTrunk, State.mapTrunk_profiles]

/-- R122: an ended number that has been sent is followed by FT11. -/
theorem State.sendsNext_ended (sent : (s.trunk t).send.digits.length < (s.trunk t).send.pos)
    (ended : (s.trunk t).send.endFlag = true) (v : UnitNo) :
    s.sendsNext t v c = s.sends t v .endOfNumber .ft11 c.lastSent := by
  unfold State.sendsNext
  dsimp only
  rw [if_neg (Nat.not_le.mpr sent), if_pos ended]

/-! ### Acknowledgements -/

theorem State.acknowledgeItem_digit (item : c.item = some (.digit pos)) (position : (s.trunk t).send.pos = pos)
    (digit : (s.trunk t).send.digits[pos - 1]? = some d) :
    s.acknowledgeItem t c.item = s.mapTrunk t (Trunk.countsSent pos d) := by
  unfold State.acknowledgeItem
  rw [item]
  dsimp only
  rw [if_pos position.le, digit]
  dsimp only
  rw [State.recordDigit, State.mapRecord, State.mapTrunk_mapTrunk]
  rfl

theorem State.acknowledgeItem_again (item : c.item = some .category ∨ c.item = some .endOfNumber ∨
    ∃ pos, c.item = some (.digit pos) ∧ (s.trunk t).send.pos = pos + 1) : s.acknowledgeItem t c.item = s := by
  unfold State.acknowledgeItem
  rcases item with item | item | ⟨pos, item, past⟩ <;> rw [item]
  exact if_neg (by omega)

/-! ### What the answers ask for -/

/-- R123, R128: a backward signal reaches a sender that is sending or waiting. -/
theorem State.toneEvent_answer (tone : (s.trunk t).tone = some (.sender c)) (unit : (s.trunk t).unit = some h)
    (phase : c.phase = .sending ∨ c.phase = .waiting) (b : BackwardSignal) :
    s.toneEvent t (.recognised (.backward b)) =
      (s.mapUnit h.unit fun u => { u with generation := none }).mapTrunk t fun r => { r with
        tone := some (.sender { c with
          phase := .answered, noted := some b
          timer := some
            { kind := .interlock, left := 1000 * (s.profiles.get (s.trunk t).profile).interlock } }) } := by
  have unanswered : c.phase ≠ .answered := by rcases phase with e | e <;> simp [e]
  unfold State.toneEvent
  rw [tone]
  dsimp only
  rw [State.senderRecognised, if_neg unanswered, State.stopSignal, unit]
  rfl

/-- R124: after BT1 the next item is sent once the one answered is acknowledged. -/
theorem State.senderActs_bt1 {y : State} (acknowledged : s.acknowledgeItem t c.item = y)
    (unit : (y.trunk t).unit = some h) : s.senderActs t c .bt1 = y.sendsNext t h.unit c := by
  rw [State.senderActs, acknowledged, y.chooseItem_eq t c unit]

/-- R124: BT2 asks for the last digit again. -/
theorem State.senderActs_bt2 (last : c.lastSent = some pos) (unit : (s.trunk t).unit = some h) :
    s.senderActs t c .bt2 = s.sends t h.unit (.digit pos)
      (digitSignal ((s.trunk t).send.digits.getD (pos - 1) 0)) (some pos) := by
  rw [State.senderActs, last]
  exact s.sendItem_eq t c _ unit

/-- R124: BT3 asks for the category, which the call record holds. -/
theorem State.senderActs_bt3 {y : State} {r : CallRecord} {k : Category}
    (acknowledged : s.acknowledgeItem t c.item = y) (unit : (y.trunk t).unit = some h)
    (record : (y.trunk t).record = some r) (category : r.category = some k) :
    s.senderActs t c .bt3 = y.sends t h.unit .category k.signal c.lastSent := by
  have signal : y.itemSignal t .category = k.signal := by simp [State.itemSignal, record, category]
  rw [State.senderActs, acknowledged, y.sendItem_eq t c _ unit, signal]

/-- R126, R129: a sender on a trunk in OUT-SELECTING in no relay link ends. -/
theorem State.endSender_eq (state : (s.trunk t).state = .outSelecting) (hl : (s.trunk t).link = none)
    (o : RegOutcome) : s.endSender t o = s.senderEnds t o := by
  have same := (s.endTone_pool true t).trunks t
  rw [State.endSender, State.outOutcome_eq _ _ _ (by rw [same]; exact state) (by rw [same]; exact hl),
    State.endTone_eq, State.senderEnds]

end Sender

/-- Settles O32. -/
theorem toneSenderIsAnsweredAndSendsTheNextItem : Obligations.ToneSenderIsAnsweredAndSendsTheNextItem := by
  unfold Obligations.ToneSenderIsAnsweredAndSendsTheNextItem
  refine ⟨digitSignal_table, fun s t c h p hp tone unit => ?_⟩
  subst hp
  have acts {b : BackwardSignal} (x : ToneSignal) (answered : c.phase = .answered) (noted : c.noted = some b) :
      s.toneEvent t (.ceased x) = s.senderActs t c b := State.toneEvent_ceased x tone answered noted
  have held (pos : Nat) (d : Digit) : ((s.mapTrunk t (Trunk.countsSent pos d)).trunk t).unit = some h := by
    rw [State.mapTrunk_trunk]; exact unit
  refine ⟨fun b phase => State.toneEvent_answer tone unit phase b,
    fun x pos d answered noted item position _ digit last ended => ?_,
    fun x pos answered noted lastSent => (acts x answered noted).trans (State.senderActs_bt2 lastSent unit),
    fun x d pos y answered item position _ digit hy => ?_, fun x answered item => ?_, fun x answered state hl => ?_⟩
  · rw [acts x answered noted, State.senderActs_bt1 (State.acknowledgeItem_digit item position digit) (held pos d),
      State.sendsNext_ended, State.sends_mapTrunk (Trunk.countsSent pos d) rfl]
    · rfl
    · rw [State.mapTrunk_trunk]; exact Nat.lt_succ_of_le last.le
    · rw [State.mapTrunk_trunk]; exact ended
  · have acknowledged : s.acknowledgeItem t c.item = y :=
      (State.acknowledgeItem_digit item position digit).trans hy.symm
    have keeps : (y.trunk t).unit = some h := hy ▸ held pos d
    refine ⟨fun noted => (acts x answered noted).trans (State.senderActs_bt1 acknowledged keeps),
      fun r k noted record category => (acts x answered noted).trans (State.senderActs_bt3
        (r := { r with digits := r.digits ++ [d] }) acknowledged keeps ?_ category)⟩
    rw [hy, State.mapTrunk_trunk]
    dsimp only
    rw [record, Option.map_some]
  · have acknowledged : s.acknowledgeItem t c.item = s := State.acknowledgeItem_again item
    exact ⟨fun noted => (acts x answered noted).trans (State.senderActs_bt1 acknowledged unit),
      fun r k noted record category =>
        (acts x answered noted).trans (State.senderActs_bt3 acknowledged unit record category)⟩
  · refine ⟨fun noted unsent => ?_, fun noted => ?_, fun noted => ?_, fun noted => ?_⟩ <;>
      rw [acts x answered noted, ← State.endSender_eq state hl, State.senderActs]
    rw [unsent]

end Sys2Proof.Machine
end

section
/-! PROOFS. The interlocked tone receiver. -/

namespace Sys2Proof.Machine

theorem forwardSignals_meaning : forwardSignals.map ForwardSignal.meaning = [.digit 1, .digit 2, .digit 3, .digit 4,
    .digit 5, .digit 6, .digit 7, .digit 8, .digit 9, .digit 0, .endOfNumber, .category .ordinary, .category .priority,
    .category .test, .unassigned] := by decide

theorem Trunk.outlet_unlinked {r : Trunk} (hl : r.link = none) : r.outlet = none := by rw [Trunk.outlet, hl]

theorem Trunk.outlet_inlet {r : Trunk} {peer : TrunkNo} (hl : r.link = some { peer := peer, part := .inlet }) :
    r.outlet = some peer := by rw [Trunk.outlet, hl]

/-- R133: a trunk that has received a category. -/
def Trunk.storesCategory (k : Category) (r : Trunk) : Trunk := { r with
  received := { r.received with category := some k }
  record := r.record.map fun e => { e with category := some k } }

/-- R134: a trunk that has received the end of number. -/
def Trunk.storesEnd (r : Trunk) : Trunk := { r with received := { r.received with endReceived := true } }

section Receiver

variable {s : State} {t : TrunkNo} {c : ToneReceiver} {h : HeldUnit} {f : ForwardSignal} {d : Digit} {p : Profile}
  {w : Bool}

/-! ### A forward signal that is recognised -/

/-- R131: a forward signal recognised outside LISTENING is discarded. -/
theorem State.receiverRecognised_deaf (phase : c.phase ≠ .listening) (f : ForwardSignal) :
    s.receiverRecognised t c f = s := if_pos phase

section Listening

variable (listening : c.phase = .listening)
include listening

/-- R131: a forward signal recognised in LISTENING with no outcome pending, by its meaning. -/
theorem State.receiverRecognised_listening (pending : c.pending = none) (f : ForwardSignal) :
    s.receiverRecognised t c f = match f.meaning with
      | .digit d => s.receiveDigit t { c with timer := none } d
      | .category k => (s.storeCategory t k).respond t { c with timer := none } .bt1
      | .endOfNumber => s.receiveEnd t { c with timer := none }
      | .unassigned => s.respondReject t { c with timer := none } .protocol := by
  unfold State.receiverRecognised
  rw [if_neg (not_not_intro listening)]
  dsimp only
  rw [pending]
  cases f.meaning <;> rfl

/-- R131, R133: a pending outcome answers a category, once that is stored. -/
theorem State.receiverRecognised_pendingCategory {o : PendingOutcome} {k : Category} (pending : c.pending = some o)
    (meaning : f.meaning = .category k) : s.receiverRecognised t c f =
      (s.storeCategory t k).respondOutcome t { c with timer := none } o.outcome := by
  unfold State.receiverRecognised
  rw [if_neg (not_not_intro listening)]
  dsimp only
  rw [pending, meaning]

/-- R131: a pending outcome answers any other signal. -/
theorem State.receiverRecognised_pending {o : PendingOutcome} (pending : c.pending = some o)
    (meaning : ∀ k, f.meaning ≠ .category k) :
    s.receiverRecognised t c f = s.respondOutcome t { c with timer := none } o.outcome := by
  unfold State.receiverRecognised
  rw [if_neg (not_not_intro listening)]
  dsimp only
  rw [pending]
  cases m : f.meaning with
  | category k => exact absurd m (meaning k)
  | digit d => rfl
  | endOfNumber => rfl
  | unassigned => rfl

end Listening

theorem State.toneEvent_forward (tone : (s.trunk t).tone = some (.receiver c)) (f : ForwardSignal) :
    s.toneEvent t (.recognised (.forward f)) = s.receiverRecognised t c f := by
  unfold State.toneEvent
  rw [tone]

theorem State.toneEvent_receiverCeased (tone : (s.trunk t).tone = some (.receiver c)) (x : ToneSignal) :
    s.toneEvent t (.ceased x) = s.receiverCeased t c := by
  unfold State.toneEvent
  rw [tone]

/-! ### Responses -/

/-- R132: BT3 where a category request is wanted, and BT1 otherwise. -/
theorem State.respondMore_eq (unit : (s.trunk t).unit = some h) (c : ToneReceiver) (w : Bool) :
    s.respondMore t c w = if w then s.responds t h.unit .bt3 { c with categoryAsked := true }
      else s.responds t h.unit .bt1 c := by
  rw [State.respondMore, s.respond_eq t _ _ unit, s.respond_eq t _ _ unit]

/-- R132, R134, R135: a rejection chosen as the response on a trunk in no relay link. -/
theorem State.respondReject_unlinked (unit : (s.trunk t).unit = some h) (state : (s.trunk t).state = .inSelecting)
    (hl : (s.trunk t).link = none) (c : ToneReceiver) (cause : Cause) :
    s.respondReject t c cause = s.respondsLast t h.unit c (.reject cause) := by
  have link : ((s.respondsLast t h.unit c (.reject cause)).trunk t).link = none := by
    rw [State.respondsLast, State.endsIn_link, State.replies_trunk]
    exact hl
  rw [State.respondReject, s.respondOutcome_eq t c _ unit state, State.inletGone_unlinked _ _ link]

/-! ### Digits -/

/-- R132: a category request is wanted after the digit just stored. -/
theorem State.wantsCategory_stored (hp : p = s.profiles.get (s.trunk t).profile)
    (wanted : w = true ↔ p.categoryPolicy = .afterFirstDigit ∧ (s.trunk t).received.digits = [] ∧
      (s.trunk t).received.category = none ∧ c.categoryAsked = false) :
    (s.mapTrunk t (Trunk.storesDigit d)).wantsCategory t c = w := by
  have same : (s.mapTrunk t (Trunk.storesDigit d)).profileOf t = p :=
    (s.mapTrunk_profileOf t t _ rfl).trans hp.symm
  rw [Bool.eq_iff_iff, wanted, State.wantsCategory, same, State.mapTrunk_trunk]
  simp [Trunk.storesDigit, and_assoc, and_comm, and_left_comm]

theorem State.answerDigit_host (host : (s.profileOf t).mode = .host) (c : ToneReceiver) (w : Bool) :
    s.answerDigit t c w = s.respondMore t c w := by
  unfold State.answerDigit
  rw [host]

/-- R132: in TABLE mode the standing of the number on a trunk in no relay link chooses the response. -/
theorem State.answerDigit_table {st : Standing} (table : (s.profileOf t).mode = .table)
    (standing : (s.trunk t).standing = some st) (unit : (s.trunk t).unit = some h)
    (state : (s.trunk t).state = .inSelecting) (hl : (s.trunk t).link = none) (c : ToneReceiver) (w : Bool) :
    s.answerDigit t c w =
      if st = .refused then s.respondsLast t h.unit c (.reject .unobtainable)
      else if st = .complete then
        if w then s.responds t h.unit .bt3 { c with
          categoryAsked := true, pending := some { outcome := .complete, own := true } }
        else s.respondsLast t h.unit c .complete
      else if w then s.responds t h.unit .bt3 { c with categoryAsked := true } else s.responds t h.unit .bt1 c := by
  unfold State.answerDigit
  rw [table, standing, Trunk.outlet_unlinked hl]
  cases st with
  | refused => exact State.respondReject_unlinked unit state hl c _
  | complete =>
    cases w with
    | true => exact State.respondMore_eq unit _ true
    | false => exact s.respondOutcome_eq t c _ unit state
  | openNumber => exact State.respondMore_eq unit c w
  | undecided => exact State.respondMore_eq unit c w

/-- R132: on a trunk in no relay link a digit that the receive store has room for is stored, shown to the host or
judged, and answered. -/
theorem State.receiveDigit_stored (hl : (s.trunk t).link = none) (room : (s.trunk t).received.digits.length < 24)
    (hp : p = s.profiles.get (s.trunk t).profile)
    (wanted : w = true ↔ p.categoryPolicy = .afterFirstDigit ∧ (s.trunk t).received.digits = [] ∧
      (s.trunk t).received.category = none ∧ c.categoryAsked = false) :
    s.receiveDigit t c d = (match p.mode with
      | .host => (s.mapTrunk t (Trunk.storesDigit d)).showProgress t
      | .table => (s.mapTrunk t (Trunk.storesDigit d)).runAnalysis t).answerDigit t c w := by
  have unlinked : ((s.mapTrunk t (Trunk.storesDigit d)).trunk t).link = none := by
    rw [State.mapTrunk_trunk]
    exact hl
  have same : (s.mapTrunk t (Trunk.storesDigit d)).profileOf t = p :=
    (s.mapTrunk_profileOf t t _ rfl).trans hp.symm
  unfold State.receiveDigit
  rw [if_neg (by simp [Trunk.outlet_unlinked hl]), if_neg (show ¬ Config.storeRoom ≤ _ from Nat.not_le.mpr room),
    State.storeDigit_eq]
  dsimp only
  rw [State.overflowing_unlinked unlinked]
  dsimp only
  rw [State.relayDigit_unlinked unlinked, State.wantsCategory_stored hp wanted]
  cases mode : p.mode <;> simp only [same, mode]

/-- R132: in HOST mode a digit stored is shown to the host and answered. -/
theorem State.receiveDigit_host (hl : (s.trunk t).link = none) (room : (s.trunk t).received.digits.length < 24)
    (unit : (s.trunk t).unit = some h) (hp : p = s.profiles.get (s.trunk t).profile)
    (wanted : w = true ↔ p.categoryPolicy = .afterFirstDigit ∧ (s.trunk t).received.digits = [] ∧
      (s.trunk t).received.category = none ∧ c.categoryAsked = false) (host : p.mode = .host) {y : State}
    (hy : y = (s.mapTrunk t (Trunk.storesDigit d)).submit (some t) (.digitProgress (s.trunk t).received.category
      (s.trunk t).received.endReceived ((s.trunk t).received.digits ++ [d]))) :
    s.receiveDigit t c d =
      if w then y.responds t h.unit .bt3 { c with categoryAsked := true } else y.responds t h.unit .bt1 c := by
  have shown : (s.mapTrunk t (Trunk.storesDigit d)).showProgress t = y := by
    rw [hy, State.showProgress, State.mapTrunk_trunk]
    rfl
  have own : y.trunk t = Trunk.storesDigit d (s.trunk t) := by rw [hy, State.submit_trunk, State.mapTrunk_trunk]
  have mode : (y.profileOf t).mode = .host := by
    rw [State.profileOf, own, ← host, hp, hy, State.submit_profiles]
    rfl
  rw [State.receiveDigit_stored hl room hp wanted, host]
  dsimp only
  rw [shown, State.answerDigit_host mode, State.respondMore_eq (by rw [own]; exact unit)]

/-- R132, R156: in TABLE mode a digit stored is judged, and the standing chooses the response. -/
theorem State.receiveDigit_table (hl : (s.trunk t).link = none) (room : (s.trunk t).received.digits.length < 24)
    (unit : (s.trunk t).unit = some h) (state : (s.trunk t).state = .inSelecting)
    (hp : p = s.profiles.get (s.trunk t).profile)
    (wanted : w = true ↔ p.categoryPolicy = .afterFirstDigit ∧ (s.trunk t).received.digits = [] ∧
      (s.trunk t).received.category = none ∧ c.categoryAsked = false) (table : p.mode = .table) {st : Standing}
    {len : Option Nat} (found : analyse s.analysis.toList (s.trunk t).group p.defaultOutcome
      ((s.trunk t).received.digits ++ [d]) = (st, len))
    {y : State} (hy : y = s.mapTrunk t fun r => Trunk.stands st len (Trunk.storesDigit d r)) :
    s.receiveDigit t c d =
      if st = .refused then y.respondsLast t h.unit c (.reject .unobtainable)
      else if st = .complete then
        if w then y.responds t h.unit .bt3 { c with
          categoryAsked := true, pending := some { outcome := .complete, own := true } }
        else y.respondsLast t h.unit c .complete
      else if w then y.responds t h.unit .bt3 { c with categoryAsked := true } else y.responds t h.unit .bt1 c := by
  have judged : (s.mapTrunk t (Trunk.storesDigit d)).runAnalysis t = y := by
    rw [State.runAnalysis_eq (st := st) (len := len), State.mapTrunk_mapTrunk, hy]
    rw [State.profileOf, State.mapTrunk_trunk, ← found, hp]
    rfl
  have own : y.trunk t = Trunk.stands st len (Trunk.storesDigit d (s.trunk t)) := by rw [hy, State.mapTrunk_trunk]
  have mode : (y.profileOf t).mode = .table := by
    rw [State.profileOf, own, ← table, hp, hy]
    rfl
  rw [State.receiveDigit_stored hl room hp wanted, table]
  dsimp only
  rw [judged]
  refine State.answerDigit_table mode ?_ ?_ ?_ ?_ c w <;> rw [own]
  · rfl
  · exact unit
  · exact state
  · exact hl

/-- R132: a digit beyond the room of the receive store, on a trunk in no relay link. -/
theorem State.receiveDigit_full (hl : (s.trunk t).link = none) (full : 24 ≤ (s.trunk t).received.digits.length)
    (unit : (s.trunk t).unit = some h) (state : (s.trunk t).state = .inSelecting) :
    s.receiveDigit t c d = s.respondsLast t h.unit c (.reject .congestion) := by
  unfold State.receiveDigit
  rw [if_neg (by simp [Trunk.outlet_unlinked hl]), if_pos (show Config.storeRoom ≤ _ from full),
    State.respondReject_unlinked unit state hl]

/-- R142: a digit at a relay inlet whose number is complete. -/
theorem State.receiveDigit_complete {peer : TrunkNo} (hl : (s.trunk t).link = some { peer := peer, part := .inlet })
    (complete : c.complete = true) (unit : (s.trunk t).unit = some h) :
    s.receiveDigit t c d = s.responds t h.unit .bt1 c := by
  unfold State.receiveDigit
  rw [if_pos ⟨complete, by simp [Trunk.outlet_inlet hl]⟩, s.respond_eq t _ _ unit]

/-! ### Categories -/

/-- R133: a category is stored, and in HOST mode shown to the host. -/
theorem State.storeCategory_eq (hp : p = s.profiles.get (s.trunk t).profile) (k : Category) :
    s.storeCategory t k = if p.mode = .host then
        (s.mapTrunk t (Trunk.storesCategory k)).submit (some t)
          (.digitProgress (some k) (s.trunk t).received.endReceived (s.trunk t).received.digits)
      else s.mapTrunk t (Trunk.storesCategory k) := by
  have same : (s.mapTrunk t (Trunk.storesCategory k)).profileOf t = p :=
    (s.mapTrunk_profileOf t t _ rfl).trans hp.symm
  have shown : (s.mapTrunk t (Trunk.storesCategory k)).showProgress t =
      (s.mapTrunk t (Trunk.storesCategory k)).submit (some t)
        (.digitProgress (some k) (s.trunk t).received.endReceived (s.trunk t).received.digits) := by
    rw [State.showProgress, State.mapTrunk_trunk]
    rfl
  change (if ((s.mapTrunk t (Trunk.storesCategory k)).profileOf t).mode = .host then
    (s.mapTrunk t (Trunk.storesCategory k)).showProgress t else s.mapTrunk t (Trunk.storesCategory k)) = _
  rw [same, shown]

theorem State.storeCategory_trunk (k : Category) :
    (s.storeCategory t k).trunk t = Trunk.storesCategory k (s.trunk t) := by
  rw [State.storeCategory_eq rfl]
  split_ifs <;> simp only [State.submit_trunk, State.mapTrunk_trunk]

/-! ### The end of number -/

/-- R134: FT11 on a trunk in no relay link. -/
theorem State.receiveEnd_unlinked (hl : (s.trunk t).link = none) (unit : (s.trunk t).unit = some h)
    (hp : p = s.profiles.get (s.trunk t).profile) {y : State} (hy : y = s.mapTrunk t Trunk.storesEnd) :
    ((s.trunk t).received.digits = [] → (s.trunk t).state = .inSelecting →
      s.receiveEnd t c = y.respondsLast t h.unit c (.reject .protocol)) ∧
    ((s.trunk t).received.digits ≠ [] → p.mode = .table → (s.trunk t).state = .inSelecting →
      s.receiveEnd t c = y.respondsLast t h.unit c .complete) ∧
    ((s.trunk t).received.digits ≠ [] → p.mode = .host → s.receiveEnd t c = (y.mapTrunk t fun r => { r with
      tone := some (.receiver { c with
        phase := .held, heldCeased := false
        timer := some { kind := .hostDecision, left := 1000 * p.hostDecision } }) }).submit (some t)
          (.digitProgress (s.trunk t).received.category true (s.trunk t).received.digits)) := by
  have own : y.trunk t = Trunk.storesEnd (s.trunk t) := by rw [hy, State.mapTrunk_trunk]
  have unlinked : (y.trunk t).link = none := by rw [own]; exact hl
  have held : (y.trunk t).unit = some h := by rw [own]; exact unit
  have same : y.profileOf t = p := by rw [hy, hp]; exact s.mapTrunk_profileOf t t _ rfl
  have digits : (y.trunk t).received.digits = (s.trunk t).received.digits := by rw [own]; rfl
  have stored : (s.mapTrunk t fun r => { r with received := { r.received with endReceived := true } }) = y := hy.symm
  unfold State.receiveEnd
  rw [stored]
  dsimp only
  rw [Trunk.outlet_unlinked unlinked, digits, same]
  dsimp only
  refine ⟨fun none_stored state => ?_, fun some_stored table state => ?_, fun some_stored host => ?_⟩
  · rw [if_pos none_stored, State.respondReject_unlinked held (by rw [own]; exact state) unlinked]
  · rw [if_neg some_stored, table]
    exact y.respondOutcome_eq t c _ held (by rw [own]; exact state)
  · rw [if_neg some_stored, host]
    dsimp only
    rw [State.showProgress, State.setTone, State.mapTrunk_trunk, own]
    rfl

/-- R142: FT11 at a relay inlet. -/
theorem State.receiveEnd_inlet {peer : TrunkNo} (hl : (s.trunk t).link = some { peer := peer, part := .inlet })
    {y : State} (hy : y = s.mapTrunk t Trunk.storesEnd) : s.receiveEnd t c =
      if c.complete then y.setTone t (.receiver { c with phase := .held, heldCeased := false, timer := none })
      else if (s.trunk t).received.digits = [] then y.respondReject t c .protocol
      else (y.setTone t (.receiver { c with
        phase := .held, heldCeased := false, timer := none, complete := true })).completeInlet t peer := by
  have own : y.trunk t = Trunk.storesEnd (s.trunk t) := by rw [hy, State.mapTrunk_trunk]
  have outlet : (y.trunk t).outlet = some peer := by rw [own]; exact Trunk.outlet_inlet hl
  have digits : (y.trunk t).received.digits = (s.trunk t).received.digits := by rw [own]; rfl
  have stored : (s.mapTrunk t fun r => { r with received := { r.received with endReceived := true } }) = y := hy.symm
  unfold State.receiveEnd
  rw [stored]
  dsimp only
  rw [outlet, digits]

/-- R163: the completion of a tone inlet that runs no wait, where the outlet's engine is not active. -/
theorem State.completeInlet_idle {peer : TrunkNo}
    (tone : (s.trunk t).tone = some (.receiver { c with complete := true, timer := none }))
    (decadic : (s.trunk t).decadic = none) (other : peer ≠ t) (quiet : (s.trunk peer).decadic = none)
    (silent : (s.trunk peer).tone = none) :
    s.completeInlet t peer = (s.mapTrunk t fun r => { r with
      linkRecord := r.linkRecord.map fun l => { l with inletComplete := true } }).mapTrunk peer fun r => { r with
        send := { r.send with endFlag := true } } := by
  have marked : (s.mapTrunk t fun r => { r.markComplete with
        linkRecord := r.linkRecord.map fun l => { l with inletComplete := true } }) =
      s.mapTrunk t fun r => { r with linkRecord := r.linkRecord.map fun l => { l with inletComplete := true } } := by
    refine State.mapTrunk_congr _ _ ?_
    simp [Trunk.markComplete, tone, decadic]
  unfold State.completeInlet
  dsimp only
  rw [marked]
  unfold State.takeEnd
  simp [State.mapTrunk_trunk_ne _ _ other, quiet, silent]

/-- R142, R163: FT11 completes the number of a relay inlet and is held. -/
theorem State.receiveEnd_completes {peer : TrunkNo} (hl : (s.trunk t).link = some { peer := peer, part := .inlet })
    (more : c.complete = false) (some_stored : (s.trunk t).received.digits ≠ [])
    (decadic : (s.trunk t).decadic = none) (other : peer ≠ t) (quiet : (s.trunk peer).decadic = none)
    (silent : (s.trunk peer).tone = none) :
    s.receiveEnd t c = (s.mapTrunk t fun r => { r with
      received := { r.received with endReceived := true }
      linkRecord := r.linkRecord.map fun l => { l with inletComplete := true }
      tone := some (.receiver { c with
        phase := .held, heldCeased := false, timer := none, complete := true }) }).mapTrunk peer fun r => { r with
          send := { r.send with endFlag := true } } := by
  rw [State.receiveEnd_inlet hl rfl, if_neg (by simp [more]), if_neg some_stored, State.setTone,
    State.mapTrunk_mapTrunk, State.completeInlet_idle (c := { c with phase := .held, heldCeased := false }),
    State.mapTrunk_mapTrunk]
  · rfl
  · rw [State.mapTrunk_trunk]
  · rw [State.mapTrunk_trunk]; exact decadic
  · exact other
  · rw [State.mapTrunk_trunk_ne _ _ other, quiet]
  · rw [State.mapTrunk_trunk_ne _ _ other, silent]

/-! ### The cessation of a forward signal -/

/-- R136: the digit wait that applies in LISTENING. -/
theorem State.listenWait_eq (hp : p = s.profiles.get (s.trunk t).profile) (c : ToneReceiver) : s.listenWait t c =
    if c.complete then none
    else if p.mode = .table ∧ (s.trunk t).standing = some .openNumber then
      some { kind := .openNumber, left := 1000 * p.openNumberWait }
    else some { kind := .interDigit, left := 1000 * p.interDigitWait } := by
  subst hp
  rfl

theorem State.stopSignal_eq (unit : (s.trunk t).unit = some h) :
    s.stopSignal t = s.mapUnit h.unit fun u => { u with generation := none } := by
  rw [State.stopSignal, unit]

/-- R140: a pulse takes the place of a signal just stopped. -/
theorem State.pulses_stopped (v : UnitNo) (c : ToneReceiver) (o : RegOutcome) :
    (s.mapUnit v fun u => { u with generation := none }).pulses t v c o = s.pulses t v c o := by
  unfold State.pulses State.replies
  rw [State.mapUnit_mapUnit]
  rfl

/-- R139, R140: the response that has ceased is followed by the pulse of an outcome kept from outside. -/
theorem State.receiverCeased_pulses {o : RegOutcome} (unit : (s.trunk t).unit = some h)
    (phase : c.phase = .responding) (pending : c.pending = some { outcome := o, own := false })
    (state : (s.trunk t).state = .inSelecting) : s.receiverCeased t c = s.pulses t h.unit c o := by
  unfold State.receiverCeased
  rw [phase]
  dsimp only
  rw [pending, State.stopSignal_eq unit]
  exact ((s.mapUnit h.unit _).pulseOutcome_eq t c o unit state).trans (State.pulses_stopped h.unit c o)

/-- R136: the response that has ceased is followed by LISTENING. -/
theorem State.receiverCeased_listens (unit : (s.trunk t).unit = some h) (phase : c.phase = .responding)
    (pending : ∀ o, c.pending ≠ some { outcome := o, own := false }) : s.receiverCeased t c =
      (s.mapUnit h.unit fun u => { u with generation := none }).mapTrunk t fun r => { r with
        tone := some (.receiver { c with phase := .listening, timer := s.listenWait t c }) } := by
  unfold State.receiverCeased
  rw [phase]
  dsimp only
  rw [State.stopSignal_eq unit]
  match kept : c.pending with
  | some { outcome := o, own := false } => exact absurd kept (pending o)
  | some { outcome := _, own := true } => rfl
  | none => rfl

end Receiver

/-- Settles O33. -/
theorem toneReceiverAnswersAndReturnsToListening : Obligations.ToneReceiverAnswersAndReturnsToListening := by
  unfold Obligations.ToneReceiverAnswersAndReturnsToListening
  refine ⟨forwardSignals_meaning, fun s t c h p ds hp hds tone unit => ?_⟩
  subst hds
  have hears (f : ForwardSignal) := State.toneEvent_forward tone f
  have ceases (x : ToneSignal) := State.toneEvent_receiverCeased tone x
  refine ⟨fun f phase => (hears f).trans (State.receiverRecognised_deaf phase f),
    fun f d w y hl meaning listening pending room host wanted hy => ?_,
    fun f d w y st len hl meaning listening pending room table state wanted found hy => ?_,
    fun f d hl meaning listening pending full state => ?_, fun f k x y meaning listening hx hy => ?_,
    fun f o meaning listening pending state => ?_, fun y hl listening pending hy => ?_,
    fun hl listening pending state => ?_, fun peer hl listening pending => ?_, fun x phase => ?_, fun x => ?_⟩
  · rw [hears, State.receiverRecognised_listening listening pending, meaning]
    exact State.receiveDigit_host hl room unit hp (c := { c with timer := none }) wanted host hy
  · have judged : y = s.mapTrunk t fun r => Trunk.stands st len (Trunk.storesDigit d r) := by
      rw [hy]
      refine State.mapTrunk_congr _ _ ?_
      rw [Trunk.stands_storesDigit]
      cases len <;> rfl
    rw [hears, State.receiverRecognised_listening listening pending, meaning]
    exact State.receiveDigit_table hl room unit state hp (c := { c with timer := none }) wanted table found judged
  · rw [hears, State.receiverRecognised_listening listening pending, meaning]
    exact State.receiveDigit_full hl full unit state
  · have stored : s.storeCategory t k = y := by rw [State.storeCategory_eq hp, hy, hx]; rfl
    have own : y.trunk t = Trunk.storesCategory k (s.trunk t) := by rw [← stored, State.storeCategory_trunk]
    have held : (y.trunk t).unit = some h := by rw [own]; exact unit
    refine ⟨fun pending => ?_, fun o pending state => ?_⟩
    · rw [hears, State.receiverRecognised_listening listening pending, meaning]
      dsimp only
      rw [stored, y.respond_eq t _ _ held]
      rfl
    · rw [hears, State.receiverRecognised_pendingCategory listening pending meaning, stored,
        y.respondOutcome_eq t _ _ held (by rw [own]; exact state)]
      rfl
  · rw [hears, State.receiverRecognised_pending listening pending meaning, s.respondOutcome_eq t _ _ unit state]
    rfl
  · rw [hears, State.receiverRecognised_listening listening pending]
    exact State.receiveEnd_unlinked hl unit hp hy
  · rw [hears, State.receiverRecognised_listening listening pending]
    exact State.respondReject_unlinked unit state hl _ _
  · refine ⟨fun f d complete meaning => ?_, fun complete => ?_,
      fun more some_stored decadic other quiet silent => ?_⟩
    · rw [hears, State.receiverRecognised_listening listening pending, meaning]
      exact State.receiveDigit_complete hl complete unit
    · rw [hears, State.receiverRecognised_listening listening pending]
      refine (State.receiveEnd_inlet hl rfl).trans ((if_pos complete).trans ?_)
      exact s.mapTrunk_mapTrunk t _ _
    · rw [hears, State.receiverRecognised_listening listening pending]
      exact State.receiveEnd_completes hl more some_stored decadic other quiet silent
  · refine ⟨fun o pending state => (ceases x).trans (State.receiverCeased_pulses unit phase pending state),
      fun pending => ?_⟩
    rw [ceases, State.receiverCeased_listens unit phase pending, State.listenWait_eq hp]
  · refine ⟨fun final => ?_, fun held => ?_, fun quiet => ?_⟩
    · rw [ceases, State.receiverCeased, final, ← unit]
      exact s.endTone_eq t
    · rw [ceases, State.receiverCeased, held]
      rfl
    · rw [ceases, State.receiverCeased]
      rcases quiet with phase | phase <;> rw [phase]

end Sys2Proof.Machine
end

section
/-! PROOFS. SET-ANALYSIS and GET-ANALYSIS: an entry is stored and read back. -/

namespace Sys2Proof.Machine

/-! ### The payload of a SET-ANALYSIS -/

theorem positionOf_positionByte (o : Option Digit) : positionOf (positionByte o).toNat = some o := by
  cases o with
  | none => rfl
  | some d =>
    have value : (positionByte (some d)).toNat = d.val := byte_toNat _ (by simp; omega)
    have digit : d.val ≠ 10 := by omega
    rw [value, positionOf, if_neg digit, digitOf, dif_pos d.isLt]
    rfl

theorem analysisOutcomeOf_code (o : AnalysisOutcome) : analysisOutcomeOf (byte o.code).toNat = some o := by
  cases o <;> rfl

/-- R153: the pattern of an entry, position by position. -/
theorem AnalysisEntry.pattern_eq (e : AnalysisEntry) : e.pattern = #v[e.pattern.get 0, e.pattern.get 1, e.pattern.get 2,
    e.pattern.get 3, e.pattern.get 4, e.pattern.get 5] := by
  refine Vector.ext fun i hi => ?_
  interval_cases i <;> rfl

/-- R153, R154: the twelve bytes of an entry, one by one. -/
theorem AnalysisEntry.bytes_eq (e : AnalysisEntry) (n : Nat) : e.bytes n =
    [byte n, flagByte e.valid, e.groups, byte e.patternLength, positionByte (e.pattern.get 0),
      positionByte (e.pattern.get 1), positionByte (e.pattern.get 2), positionByte (e.pattern.get 3),
      positionByte (e.pattern.get 4), positionByte (e.pattern.get 5), byte e.outcome.code, byte e.length] := by
  rw [AnalysisEntry.bytes, e.pattern_eq]
  rfl

/-- R153: an entry in range is read back from its bytes. -/
theorem readAnalysis_bytes {e : AnalysisEntry} (h : e.sound) (n : Nat) : readAnalysis (e.bytes n) = some e := by
  obtain ⟨someLen, len, someTotal, total⟩ := h
  have patternLength : (byte e.patternLength).toNat = e.patternLength := byte_toNat _ (by omega)
  have length : (byte e.length).toNat = e.length := byte_toNat _ (by omega)
  rw [e.bytes_eq]
  simp only [readAnalysis, byteAt, List.getD_cons_succ, List.getD_cons_zero, flagOf_flagByte, positionOf_positionByte,
    analysisOutcomeOf_code, patternLength, length, Option.bind_eq_bind, Option.bind_some, BitVec.ofNat_toNat,
    BitVec.setWidth_eq, ← e.pattern_eq]
  exact if_pos (by simp [*])

/-- R153: the payload that carries an entry in range is accepted. -/
theorem judgeSetAnalysis_bytes {e : AnalysisEntry} (h : e.sound) (k : Fin 32) :
    judgeSetAnalysis (e.bytes k.val) = .ok (k, e) := by
  have size : ((e.bytes k.val).length == 12) = true := by rw [e.bytes_eq]; rfl
  have index : trunkOf (byteAt (e.bytes k.val) 0) = some k := trunkOf_val k
  simp only [judgeSetAnalysis, check_bind_ok, fieldOf_bind_ok]
  exact ⟨size, k, index, e, readAnalysis_bytes h _, rfl⟩

/-- R153, R158: an accepted SET-ANALYSIS. -/
theorem State.takeSetAnalysis_bytes {e : AnalysisEntry} (h : e.sound) (s : State) (k : Fin 32) :
    s.takeSetAnalysis (e.bytes k.val) =
      ({ s with analysis := s.analysis.set k e } : State).sendReply setAnalysisType .ok [] := by
  unfold State.takeSetAnalysis
  rw [judgeSetAnalysis_bytes h]
  rfl

/-- Settles O45. -/
theorem analysisEntriesAreStoredAndReadBack : Obligations.AnalysisEntriesAreStoredAndReadBack := by
  unfold Obligations.AnalysisEntriesAreStoredAndReadBack
  intro s k e sound
  have stored : (s.analysis.set k e).get k = e := by rw [get_set, if_pos rfl]
  refine ⟨_, congrArg Host.Outcome.next (s.takeSetAnalysis_bytes sound k), rfl, ?_⟩
  rw [exec_getAnalysis, State.takeGetAnalysis_carried, stored]
  rfl

end Sys2Proof.Machine
end

section
/-! PROOFS. Number analysis: the first applicable entry that matches decides. -/

namespace Sys2Proof.Machine

/-! ### Entries that agree with a number -/

theorem agrees_iff (position : Option Digit) (d : Digit) : agrees position d = true ↔ ∀ x, position = some x → x = d := by
  cases position <;> simp [agrees]

/-- R155: an entry agrees with a number where each position that takes part and has a digit in its place agrees. -/
theorem AnalysisEntry.agreesWith_iff (e : AnalysisEntry) (digits : List Digit) : e.agreesWith digits = true ↔
    ∀ (k : Fin 6) (d x : Digit), k.val < e.patternLength → e.pattern.get k = some x → digits[k.val]? = some d → x = d := by
  rw [AnalysisEntry.agreesWith, List.all_eq_true]
  constructor
  · intro all k d x part position digit
    obtain ⟨present, rfl⟩ := List.getElem?_eq_some_iff.mp digit
    have paired : agrees (e.pattern.get k) digits[k.val] ∈ List.zipWith agrees e.positions digits :=
      List.mem_iff_getElem.mpr ⟨k.val, by simp [AnalysisEntry.positions, part, present],
        by simp [AnalysisEntry.positions, Vector.get_eq_getElem]⟩
    exact (agrees_iff _ _).mp (all _ paired) x position
  · intro all b member
    obtain ⟨i, hi, rfl⟩ := List.mem_iff_getElem.mp member
    simp only [AnalysisEntry.positions, List.length_zipWith, List.length_take, Vector.length_toList, lt_min_iff] at hi
    obtain ⟨⟨part, inPattern⟩, present⟩ := hi
    have agree := (agrees_iff (e.pattern.get ⟨i, inPattern⟩) digits[i]).mpr fun x position =>
      all ⟨i, inPattern⟩ _ x part position (List.getElem?_eq_getElem present)
    simpa [AnalysisEntry.positions, Vector.get_eq_getElem] using agree

theorem AnalysisEntry.applies_iff (e : AnalysisEntry) (g : GroupNo) :
    e.applies g = true ↔ e.valid = true ∧ e.groups.getLsbD g.val = true := Bool.and_eq_true_iff

theorem AnalysisEntry.matchesNumber_iff (e : AnalysisEntry) (digits : List Digit) : e.matchesNumber digits = true ↔
    e.patternLength ≤ digits.length ∧ ∀ (k : Fin 6) (d x : Digit), k.val < e.patternLength →
      e.pattern.get k = some x → digits[k.val]? = some d → x = d := by
  rw [AnalysisEntry.matchesNumber, Bool.and_eq_true_iff, decide_eq_true_iff, e.agreesWith_iff]

/-- R155: a number shorter than the pattern reaches no position beyond it. -/
theorem AnalysisEntry.possible_iff (e : AnalysisEntry) (digits : List Digit) : e.possible digits = true ↔
    digits.length < e.patternLength ∧ ∀ (k : Fin 6) (d x : Digit),
      e.pattern.get k = some x → digits[k.val]? = some d → x = d := by
  rw [AnalysisEntry.possible, Bool.and_eq_true_iff, decide_eq_true_iff, e.agreesWith_iff]
  refine and_congr_right fun short => ⟨fun all k d x position digit => ?_, fun all k d x _ => all k d x⟩
  obtain ⟨present, -⟩ := List.getElem?_eq_some_iff.mp digit
  exact all k d x (present.trans short) position digit

/-! ### The decision on a number -/

/-- R156: what an entry that matches decides. -/
def AnalysisEntry.decision (e : AnalysisEntry) (digits : List Digit) : Standing × Option Nat :=
  match e.outcome with
  | .fixed => if e.length ≤ digits.length then (.complete, some e.length) else (.undecided, none)
  | .openNumber => (.openNumber, none)
  | .refuse => (.refused, none)

section Deciding

variable {table : List AnalysisEntry} {g : GroupNo} {dflt : DefaultOutcome} {digits : List Digit}

/-- R156: the search for an applicable entry that matches goes through the whole table. -/
theorem find_applicable : (table.filter (·.applies g)).find? (·.matchesNumber digits) =
    table.find? fun e => e.applies g && e.matchesNumber digits := by
  rw [List.find?_filter]
  simp

/-- R156: the first applicable entry that matches decides. -/
theorem analyse_found {e : AnalysisEntry}
    (found : (table.find? fun e => e.applies g && e.matchesNumber digits) = some e) :
    analyse table g dflt digits = e.decision digits := by
  simp only [analyse, find_applicable, found]
  rfl

/-- R156: where no entry matches, one that is possible or else the default decides. -/
theorem analyse_notFound (missed : (table.find? fun e => e.applies g && e.matchesNumber digits) = none) :
    analyse table g dflt digits =
      if ∃ e ∈ table, e.applies g = true ∧ e.possible digits = true then (.undecided, none)
      else (if dflt = .openNumber then .openNumber else .refused, none) := by
  have any : (table.filter (·.applies g)).any (·.possible digits) = true ↔
      ∃ e ∈ table, e.applies g = true ∧ e.possible digits = true := by simp
  simp only [analyse, find_applicable, missed, any]
  cases dflt <;> rfl

end Deciding

/-- Settles O58. -/
theorem firstMatchingEntryDecides : Obligations.FirstMatchingEntryDecides := by
  unfold Obligations.FirstMatchingEntryDecides
  intro table g dflt digits applies matching possible happlies hmatching hpossible
  have found_iff (e) : (e.applies g && e.matchesNumber digits) = true ↔ applies e ∧ matching e := by
    rw [Bool.and_eq_true_iff, e.applies_iff, e.matchesNumber_iff, happlies, hmatching]
  have possible_iff : (∃ e ∈ table, e.applies g = true ∧ e.possible digits = true) ↔
      ∃ e ∈ table, applies e ∧ possible e := by
    simp only [AnalysisEntry.applies_iff, AnalysisEntry.possible_iff, happlies, hpossible]
  refine ⟨fun before after e parts earlier applicable matched => ?_, fun missed => ?_⟩
  · have first : (table.find? fun e => e.applies g && e.matchesNumber digits) = some e :=
      List.find?_eq_some_iff_append.mpr ⟨(found_iff e).mpr ⟨applicable, matched⟩, before, after, parts, fun x hx => by
        rw [Bool.not_eq_true', ← Bool.not_eq_true, found_iff]
        exact earlier x hx⟩
    rw [analyse_found first, AnalysisEntry.decision]
    exact ⟨fun o len => by rw [o]; exact if_pos len, fun o short => by rw [o]; exact if_neg (by omega),
      fun o => by rw [o], fun o => by rw [o]⟩
  · rw [analyse_notFound (List.find?_eq_none.mpr fun x hx => mt (found_iff x).mp (missed x hx))]
    exact ⟨fun one => if_pos (possible_iff.mpr one), fun lacking => if_neg (mt possible_iff.mp lacking)⟩

end Sys2Proof.Machine
end

section
/-! PROOFS. READ-TRAFFIC: a group's counters are read, and cleared where asked. -/

namespace Sys2Proof.Machine

/-! ### Fields out of their range -/

theorem groupOf_val (g : GroupNo) : groupOf (byte g.val).toNat = some g := by
  rw [byte_toNat _ (by omega)]
  exact dif_pos g.isLt

theorem groupOf_eq_none {n : Nat} (high : 7 < n) : groupOf n = none := dif_neg (by omega)

theorem flagOf_eq_none {n : Nat} (high : 1 < n) : flagOf n = none :=
  match n with
  | _ + 2 => rfl

theorem fieldOf_bind_none {α β : Type} {o : Option β} (h : o = none) (k : β → Judged α) :
    (fieldOf o >>= k) = .error .badValue := by rw [h]; rfl

/-! ### The judgement of a READ-TRAFFIC -/

theorem judgeReadTraffic_carried (g : GroupNo) (clear : Bool) :
    judgeReadTraffic [byte g.val, flagByte clear] = .ok (g, clear) := by
  simp only [judgeReadTraffic, check_bind_ok, fieldOf_bind_ok]
  exact ⟨rfl, g, groupOf_val g, clear, flagOf_flagByte clear, rfl⟩

theorem judgeReadTraffic_badLength {p : List Byte} (len : p.length ≠ 2) :
    judgeReadTraffic p = .error .badLength := by
  rw [judgeReadTraffic, check_bind, beq_false_of_ne len]
  rfl

/-- R177: the group is judged before the flag, and either one out of its range refuses the command. -/
theorem judgeReadTraffic_badValue {a b : Byte} (out : 7 < a.toNat ∨ 1 < b.toNat) :
    judgeReadTraffic [a, b] = .error .badValue := by
  have value : (fieldOf (groupOf a.toNat) >>= fun g => fieldOf (flagOf b.toNat) >>= fun clear => pure (g, clear)) =
      (.error .badValue : Judged (GroupNo × Bool)) := by
    rcases out with group | flag
    · exact fieldOf_bind_none (groupOf_eq_none group) _
    · match groupOf a.toNat with
      | none => rfl
      | some g => exact fieldOf_bind_none (flagOf_eq_none flag) _
  rw [judgeReadTraffic, check_bind]
  exact value

/-! ### The command -/

theorem exec_readTraffic (s : State) (p : List Byte) : exec (.readTraffic p) s = .next (s.takeReadTraffic p) := rfl

/-- R177: the reply is of the counters as they stood before the flag took effect. -/
theorem State.takeReadTraffic_carried (s : State) (g : GroupNo) (clear : Bool) :
    s.takeReadTraffic [byte g.val, flagByte clear] =
      (s.clearTraffic g clear).sendReply readTrafficType .ok (byte g.val :: (s.traffic.get g).bytes) := by
  rw [State.takeReadTraffic, judgeReadTraffic_carried]

theorem State.takeReadTraffic_refused (s : State) {p : List Byte} {status : Status}
    (judged : judgeReadTraffic p = .error status) : s.takeReadTraffic p = s.sendReply readTrafficType status [] := by
  rw [State.takeReadTraffic, judged]
  rfl

/-- Settles O53, by what the judgement of a READ-TRAFFIC answers: the group and the flag, or one of two refusals. -/
theorem readTrafficCarriesTheCounters : Obligations.ReadTrafficCarriesTheCounters := by
  unfold Obligations.ReadTrafficCarriesTheCounters
  rintro s g _ p a b rfl
  refine ⟨?_, ?_, fun len => ?_, fun out => ?_⟩
  · exact congrArg Host.Outcome.next (s.takeReadTraffic_carried g false)
  · exact congrArg Host.Outcome.next (s.takeReadTraffic_carried g true)
  · rw [exec_readTraffic, s.takeReadTraffic_refused (judgeReadTraffic_badLength len), readTrafficType]
  · rw [exec_readTraffic, s.takeReadTraffic_refused (judgeReadTraffic_badValue out), readTrafficType]

end Sys2Proof.Machine
end

section
/-! PROOFS. What each message type names: a command that answers with one reply under that type, and that leaves the
control link alone but for the reply and for the reset that an accepted RESET leaves pending. -/

namespace Sys2Proof.Machine

/-! ### One reply -/

/-- R184, R186: `u` is `s` after a command that sent one reply under the TYPE `x`. The state `v` that forms the reply has
the link of `s`, with a reset left pending where the command is an accepted RESET; where the command was refused, `v` is
`s` itself. -/
def State.Replied (s : State) (x : Byte) (u : State) : Prop :=
  ∃ (v : State) (st : Status) (data : List Byte), u = v.sendReply x st data ∧
    (∃ pending, v.clk = { s.clk with resetPending := pending }) ∧
    (st ≠ .ok → st ≠ .okClamped → data = [] ∧ v = s)

theorem State.replied_refuse (s : State) (x : Byte) (st : Status) : s.Replied x (s.refuse x st) :=
  ⟨s, st, [], rfl, ⟨_, rfl⟩, fun _ _ => ⟨rfl, rfl⟩⟩

theorem State.replied_ok {s v : State} (x : Byte) (data : List Byte) (clk : v.clk = s.clk) :
    s.Replied x (v.sendReply x .ok data) :=
  ⟨v, .ok, data, rfl, ⟨_, clk⟩, fun h => absurd rfl h⟩

theorem State.replied_accept {s v : State} (x : Byte) (clk : v.clk = s.clk) : s.Replied x (v.accept x) :=
  State.replied_ok x [] clk

/-- A command whose values may have been clamped (R186). -/
theorem State.replied_clamped {s v : State} (x : Byte) (data : List Byte) {asCarried : Prop} [Decidable asCarried]
    (clk : v.clk = s.clk) : s.Replied x (v.sendReply x (if asCarried then .ok else .okClamped) data) :=
  ⟨v, _, data, rfl, ⟨_, clk⟩, fun ok clamped => by split_ifs at ok clamped <;> contradiction⟩

/-! ### The settings commands -/

theorem State.useProfile_clk (s : State) (n : ProfileNo) : (s.useProfile n).clk = s.clk := by
  unfold State.useProfile
  refine (State.forTrunks_inner _ _ fun x t => (x.decodeLine_inner t).ite).clk.trans ?_
  rw [State.resendCodes_eq, State.withTrunks_clk]

theorem State.enterConfigured_clk (s : State) (t : TrunkNo) : (s.enterConfigured t).clk = s.clk := by
  unfold State.enterConfigured
  split_ifs
  · rfl
  · exact (s.enterIdle_inner t).clk

theorem State.takeSetProfile_replied (s : State) (p : List Byte) : s.Replied setProfileType (s.takeSetProfile p) := by
  unfold State.takeSetProfile
  split
  · exact s.replied_refuse _ _
  · exact State.replied_clamped _ _ (State.useProfile_clk _ _)

theorem State.takeGetProfile_replied (s : State) (p : List Byte) : s.Replied getProfileType (s.takeGetProfile p) := by
  unfold State.takeGetProfile
  split
  · exact s.replied_refuse _ _
  · exact State.replied_ok _ _ rfl

theorem State.takeSetTrunk_replied (s : State) (p : List Byte) : s.Replied setTrunkType (s.takeSetTrunk p) := by
  unfold State.takeSetTrunk
  split
  · exact s.replied_refuse _ _
  · exact State.replied_accept _ (State.enterConfigured_clk _ _)

theorem State.takeSetAnalysis_replied (s : State) (p : List Byte) : s.Replied setAnalysisType (s.takeSetAnalysis p) := by
  unfold State.takeSetAnalysis
  split
  · exact s.replied_refuse _ _
  · exact State.replied_accept _ rfl

theorem State.takeGetAnalysis_replied (s : State) (p : List Byte) : s.Replied getAnalysisType (s.takeGetAnalysis p) := by
  unfold State.takeGetAnalysis
  split
  · exact s.replied_refuse _ _
  · exact State.replied_ok _ _ rfl

theorem State.takeSetReporting_replied (s : State) (p : List Byte) :
    s.Replied setReportingType (s.takeSetReporting p) := by
  unfold State.takeSetReporting
  split_ifs
  · exact State.replied_clamped _ _ rfl
  · exact s.replied_refuse _ _

/-! ### The commands on a trunk -/

theorem State.takeSeize_replied (s : State) (p : List Byte) : s.Replied seizeType (s.takeSeize p) := by
  unfold State.takeSeize
  split
  · exact s.replied_refuse _ _
  · exact State.replied_accept _ (s.startCall_inner _).clk
  · exact State.replied_accept _ ((s.startCall_inner _).trans (State.makeLink_inner _ _ _)).clk

theorem State.takeAddDigits_replied (s : State) (p : List Byte) : s.Replied addDigitsType (s.takeAddDigits p) := by
  unfold State.takeAddDigits
  split
  · exact s.replied_refuse _ _
  · exact State.replied_accept _ (s.appendDigits_inner _).clk

theorem State.takeAcceptDigits_replied (s : State) (p : List Byte) :
    s.Replied acceptDigitsType (s.takeAcceptDigits p) := by
  unfold State.takeAcceptDigits
  split
  · exact s.replied_refuse _ _
  · exact State.replied_accept _ (s.acceptNumber_inner _ _).clk

/-- R39: a command that carries one trunk number and has an effect on that trunk. -/
theorem State.replied_judgeTrunk (s : State) (p : List Byte) (x : Byte) (allowed : TrunkState → Bool)
    {effect : TrunkNo → State} (clk : ∀ t, (effect t).clk = s.clk) :
    s.Replied x (match s.judgeTrunk p allowed with
      | .error status => s.refuse x status
      | .ok t => (effect t).accept x) := by
  split
  · exact s.replied_refuse _ _
  · exact State.replied_accept _ (clk _)

theorem State.takeAnswer_replied (s : State) (p : List Byte) : s.Replied answerType (s.takeAnswer p) :=
  s.replied_judgeTrunk p _ _ fun t => (s.answerCall_inner t).clk

theorem State.takeClearBack_replied (s : State) (p : List Byte) : s.Replied clearBackType (s.takeClearBack p) :=
  s.replied_judgeTrunk p _ _ fun _ => rfl

theorem State.takeRelease_replied (s : State) (p : List Byte) : s.Replied releaseType (s.takeRelease p) :=
  s.replied_judgeTrunk p _ _ fun t => ((s.endRegisterWork_inner t _).trans (State.clearOut_inner _ t)).clk

theorem State.blockTrunk_clk (s : State) (t : TrunkNo) : (s.blockTrunk t).clk = s.clk := by
  unfold State.blockTrunk
  dsimp only
  split_ifs <;> rfl

theorem State.unblockTrunk_clk (s : State) (t : TrunkNo) : (s.unblockTrunk t).clk = s.clk := by
  unfold State.unblockTrunk
  dsimp only
  split_ifs
  · exact (State.enterIdle_inner _ t).clk
  · rfl

theorem State.takeBlock_replied (s : State) (p : List Byte) : s.Replied blockType (s.takeBlock p) :=
  s.replied_judgeTrunk p _ _ s.blockTrunk_clk

theorem State.takeUnblock_replied (s : State) (p : List Byte) : s.Replied unblockType (s.takeUnblock p) :=
  s.replied_judgeTrunk p _ _ s.unblockTrunk_clk

theorem State.takeResetTrunk_replied (s : State) (p : List Byte) : s.Replied resetTrunkType (s.takeResetTrunk p) :=
  s.replied_judgeTrunk p _ _ fun t => (s.resetTrunk_inner t).clk

theorem State.takeQueryTrunk_replied (s : State) (p : List Byte) : s.Replied queryTrunkType (s.takeQueryTrunk p) := by
  unfold State.takeQueryTrunk
  split
  · exact s.replied_refuse _ _
  · exact State.replied_ok _ _ rfl

/-! ### The commands on the unit -/

/-- A command that takes no payload. -/
theorem State.replied_noPayload {s v : State} (p : List Byte) (x : Byte) (data : List Byte) (clk : v.clk = s.clk) :
    s.Replied x (if p = [] then v.sendReply x .ok data else s.refuse x .badLength) := by
  split_ifs
  · exact State.replied_ok _ _ clk
  · exact s.replied_refuse _ _

theorem State.takeMeasure_replied (s : State) (p : List Byte) : s.Replied measureType (s.takeMeasure p) := by
  unfold State.takeMeasure
  split
  · exact s.replied_refuse _ _
  · exact State.replied_clamped _ _ (s.testRequest_inner _ _).clk

theorem State.takeQueryPool_replied (s : State) (p : List Byte) : s.Replied queryPoolType (s.takeQueryPool p) :=
  State.replied_noPayload p _ _ rfl

theorem State.clearTraffic_clk (s : State) (g : GroupNo) (clear : Bool) : (s.clearTraffic g clear).clk = s.clk := by
  cases clear <;> rfl

theorem State.takeReadTraffic_replied (s : State) (p : List Byte) : s.Replied readTrafficType (s.takeReadTraffic p) := by
  unfold State.takeReadTraffic
  split
  · exact s.replied_refuse _ _
  · exact State.replied_ok _ _ (s.clearTraffic_clk _ _)

theorem State.takePoll_replied (s : State) (p : List Byte) : s.Replied pollType (s.takePoll p) :=
  State.replied_noPayload p _ _ rfl

theorem State.takeReadFault_replied (s : State) (p : List Byte) : s.Replied readFaultType (s.takeReadFault p) :=
  State.replied_noPayload p _ _ rfl

theorem State.emptyFault_clk (s : State) : s.emptyFault.clk = s.clk := by
  unfold State.emptyFault
  split_ifs <;> rfl

theorem State.takeClearFault_replied (s : State) (p : List Byte) : s.Replied clearFaultType (s.takeClearFault p) := by
  unfold State.takeClearFault
  split
  · exact s.replied_refuse _ _
  · exact State.replied_accept _ s.emptyFault_clk

theorem State.takeIdentify_replied (s : State) (p : List Byte) : s.Replied identifyType (s.takeIdentify p) :=
  State.replied_noPayload p _ _ rfl

/-- R187: an accepted RESET sends its reply and leaves the reset pending. -/
theorem State.takeReset_replied (s : State) (p : List Byte) : s.Replied resetType (s.takeReset p) := by
  unfold State.takeReset
  split_ifs
  · exact ⟨{ s with clk := { s.clk with resetPending := true } }, .ok, [], rfl, ⟨true, rfl⟩, fun h => absurd rfl h⟩
  · exact s.replied_refuse _ _

theorem State.takeTimeMark_replied (s : State) (p : List Byte) : s.Replied timeMarkType (s.takeTimeMark p) := by
  unfold State.takeTimeMark
  split_ifs
  · exact State.replied_accept _ rfl
  · exact s.replied_refuse _ _

/-! ### The message types -/

/-- R184: each message type names the block's operation that its command carries out, which answers under that type. -/
theorem messageType_owner : ∀ x ∈ messageTypes, ∃ take, ownerOf x.1 = some take ∧
    ∀ (s : State) (p : List Byte), exec (x.2 p) s = .next (take s p) ∧ s.Replied x.1 (take s p) := by
  simp only [messageTypes, List.forall_mem_cons]
  exact ⟨⟨_, rfl, fun s p => ⟨rfl, s.takeSetProfile_replied p⟩⟩, ⟨_, rfl, fun s p => ⟨rfl, s.takeGetProfile_replied p⟩⟩,
    ⟨_, rfl, fun s p => ⟨rfl, s.takeSetTrunk_replied p⟩⟩, ⟨_, rfl, fun s p => ⟨rfl, s.takeSetAnalysis_replied p⟩⟩,
    ⟨_, rfl, fun s p => ⟨rfl, s.takeGetAnalysis_replied p⟩⟩, ⟨_, rfl, fun s p => ⟨rfl, s.takeSetReporting_replied p⟩⟩,
    ⟨_, rfl, fun s p => ⟨rfl, s.takeSeize_replied p⟩⟩, ⟨_, rfl, fun s p => ⟨rfl, s.takeAddDigits_replied p⟩⟩,
    ⟨_, rfl, fun s p => ⟨rfl, s.takeAcceptDigits_replied p⟩⟩, ⟨_, rfl, fun s p => ⟨rfl, s.takeAnswer_replied p⟩⟩,
    ⟨_, rfl, fun s p => ⟨rfl, s.takeClearBack_replied p⟩⟩, ⟨_, rfl, fun s p => ⟨rfl, s.takeRelease_replied p⟩⟩,
    ⟨_, rfl, fun s p => ⟨rfl, s.takeBlock_replied p⟩⟩, ⟨_, rfl, fun s p => ⟨rfl, s.takeUnblock_replied p⟩⟩,
    ⟨_, rfl, fun s p => ⟨rfl, s.takeResetTrunk_replied p⟩⟩, ⟨_, rfl, fun s p => ⟨rfl, s.takeQueryTrunk_replied p⟩⟩,
    ⟨_, rfl, fun s p => ⟨rfl, s.takeMeasure_replied p⟩⟩, ⟨_, rfl, fun s p => ⟨rfl, s.takeQueryPool_replied p⟩⟩,
    ⟨_, rfl, fun s p => ⟨rfl, s.takeReadTraffic_replied p⟩⟩, ⟨_, rfl, fun s p => ⟨rfl, s.takePoll_replied p⟩⟩,
    ⟨_, rfl, fun s p => ⟨rfl, s.takeReadFault_replied p⟩⟩, ⟨_, rfl, fun s p => ⟨rfl, s.takeClearFault_replied p⟩⟩,
    ⟨_, rfl, fun s p => ⟨rfl, s.takeIdentify_replied p⟩⟩, ⟨_, rfl, fun s p => ⟨rfl, s.takeReset_replied p⟩⟩,
    ⟨_, rfl, fun s p => ⟨rfl, s.takeTimeMark_replied p⟩⟩, fun _ none => absurd none List.not_mem_nil⟩

/-- Settles O60, by what each message type's command answers. -/
theorem refusedCommandsChangeNothing : Obligations.RefusedCommandsChangeNothing := by
  unfold Obligations.RefusedCommandsChangeNothing
  intro x hx s p
  obtain ⟨take, -, answers⟩ := messageType_owner x hx
  obtain ⟨command, v, st, data, sent, ⟨pending, clk⟩, refused⟩ := answers s p
  exact ⟨v, st, data, by rw [command, sent], by rw [clk], by rw [clk], refused⟩

end Sys2Proof.Machine
end

section
/-! PROOFS. The judgement of a frame that ends at the unit, and the end of a reply. -/

namespace Sys2Proof.Machine

/-! ### Types, checks and errors -/

theorem ownerOf_eq_none {x : Byte} (unlisted : x ∉ messageTypes.map Prod.fst) : ownerOf x = none := by
  have code : ∀ n < 256, BitVec.ofNat 8 n ∉ messageTypes.map Prod.fst → (ownerOf (BitVec.ofNat 8 n)).isNone = true := by
    decide +kernel
  have none := code x.toNat x.isLt
  rw [BitVec.ofNat_toNat, BitVec.setWidth_eq] at none
  exact Option.isNone_iff_eq_none.mp (none unlisted)

/-- R183: the check sum of a list of characters and of the CHECK that it asks for. -/
theorem checkSum_checkOf (cs : List Byte) : checkSum (cs ++ [checkOf cs]) = 0 := by
  simp [checkSum, checkOf]

/-- R183: what makes a frame of at least one data character errored. -/
theorem frameErrored_iff {f : Frame} (stored : f.data ≠ []) : frameErrored f = true ↔
    f.errored = true ∨ f.data.length = 1 ∨ f.data.foldl (· + ·) 0 ≠ 0 := by
  have short : f.data.length ≤ 1 ↔ f.data.length = 1 := by
    have := List.length_pos_iff.mpr stored
    omega
  simp [frameErrored, frameType, checkSum, short, or_assoc]

theorem Frame.data_ne_nil {f : Frame} (h : f.wellFormed = true) : f.data ≠ [] := by
  intro empty
  simp [Frame.wellFormed, empty] at h

/-! ### The frame of a TYPE and a payload -/

theorem ownFrame_wellFormed (x : Byte) {p : List Byte} (fits : p.length ≤ 249) : (ownFrame x p).wellFormed = true := by
  have len : (byte (p.length + 1)).toNat = p.length + 1 := byte_toNat _ (by omega)
  simp only [ownFrame, Frame.wellFormed, List.cons_append, List.nil_append, lenInRange, len]
  simp
  omega

theorem ownFrame_not_errored (x : Byte) (p : List Byte) : frameErrored (ownFrame x p) = false := by
  have sum : checkSum (ownFrame x p).data = 0 := checkSum_checkOf _
  rw [frameErrored, sum]
  rfl

theorem ownFrame_payload (x : Byte) (p : List Byte) : framePayload (ownFrame x p) = p := by
  simp [framePayload, ownFrame]

/-- The addressing of a frame is no part of its error, its TYPE and its payload. -/
theorem ownFrame_broadcast {f : Frame} {x : Byte} {p : List Byte} (h : f = { ownFrame x p with dest := .broadcast }) :
    f.dest = .broadcast ∧ frameErrored f = false ∧ frameType f = some x ∧ framePayload f = p := by
  rw [h]
  exact ⟨rfl, ownFrame_not_errored x p, rfl, ownFrame_payload x p⟩

/-! ### The judgement -/

/-- R181, R184: a frame of the shape of an ended one that reaches the unit ends there. -/
theorem exec_commandFrame {s : State} {f : Frame} (shape : f.wellFormed = true)
    (reaches : f.dest = .broadcast ∨ s.clk.addressValid = true) :
    exec (.commandFrame f) s = .next (s.endFrame f) := by
  have takes : s.clk.takes f.dest = true := by simpa [ControlLink.takes] using reaches
  exact congrArg Host.Outcome.next (if_pos (by rw [takes, shape]; rfl))

/-- R181: a unit with an invalid address takes no individually addressed frame. -/
theorem exec_commandFrame_invalid {s : State} {f : Frame} (own : f.dest = .own) (invalid : s.clk.addressValid = false) :
    exec (.commandFrame f) s = .next s := by
  have takes : s.clk.takes f.dest = false := by simp [ControlLink.takes, own, invalid]
  exact congrArg Host.Outcome.next (if_neg (by simp [takes]))

theorem State.endFrame_held {s : State} {f : Frame} (held : s.clk.reply.isSome = true) :
    s.endFrame f = { s with clk := { s.clk with overrun := true, collection := .idle, buffer := [], errored := false } } :=
  if_pos held

theorem State.endFrame_own {s : State} {f : Frame} (free : s.clk.reply = none) (own : f.dest = .own) :
    s.endFrame f = s.endCollection.judgeOwn f := by
  have none : ¬ s.endCollection.clk.reply.isSome = true := by simp [State.endCollection, free]
  rw [State.endFrame, State.judgeFrame, if_neg none, own]

theorem State.endFrame_broadcast {s : State} {f : Frame} (free : s.clk.reply = none) (broadcast : f.dest = .broadcast) :
    s.endFrame f = s.endCollection.judgeBroadcast f := by
  have none : ¬ s.endCollection.clk.reply.isSome = true := by simp [State.endCollection, free]
  rw [State.endFrame, State.judgeFrame, if_neg none, broadcast]

/-- R184: a frame without error hands its payload to the operation that its TYPE names. -/
theorem State.judgeOwn_owner (s : State) {f : Frame} {take : State → List Byte → State}
    (good : frameErrored f = false) (owner : ownerOf ((frameType f).getD 0) = some take) :
    s.judgeOwn f = take s (framePayload f) := by
  rw [State.judgeOwn, if_neg (by simp [good]), owner]

theorem State.judgeOwn_errored (s : State) {f : Frame} (bad : frameErrored f = true) :
    s.judgeOwn f = s.sendReply ((frameType f).getD 0) .badFrame [] := by
  rw [State.judgeOwn, if_pos bad, State.refuse]

theorem State.judgeOwn_unknown (s : State) {f : Frame} (good : frameErrored f = false)
    (unknown : ownerOf ((frameType f).getD 0) = none) :
    s.judgeOwn f = s.sendReply ((frameType f).getD 0) .unknownType [] := by
  rw [State.judgeOwn, if_neg (by simp [good]), unknown, State.refuse]

/-- R184, R187: a broadcast frame with an error, or of a type that no broadcast has, is passed over. -/
theorem State.judgeBroadcast_ignored (s : State) {f : Frame}
    (h : frameErrored f = true ∨ frameType f ≠ some resetType ∧ frameType f ≠ some timeMarkType) :
    s.judgeBroadcast f = s := by
  unfold State.judgeBroadcast
  rcases h with bad | ⟨reset, timeMark⟩
  · rw [if_pos bad]
  · rw [if_neg reset, if_neg timeMark, ite_self]

theorem State.judgeBroadcast_reset (s : State) {f : Frame} {p : List Byte} (good : frameErrored f = false)
    (type : frameType f = some resetType) (payload : framePayload f = p) :
    s.judgeBroadcast f = s.broadcastReset p := by
  rw [State.judgeBroadcast, if_neg (by simp [good]), if_pos type, payload]

theorem State.judgeBroadcast_timeMark (s : State) {f : Frame} {p : List Byte} (good : frameErrored f = false)
    (type : frameType f = some timeMarkType) (payload : framePayload f = p) :
    s.judgeBroadcast f = s.broadcastTimeMark p := by
  rw [State.judgeBroadcast, if_neg (by simp [good]), if_neg (by rw [type]; decide), if_pos type, payload]

/-! ### The statements -/

/-- Settles O37, by the operation that each message type names. -/
theorem frameHandsItsPayloadToTheCommand : Obligations.FrameHandsItsPayloadToTheCommand := by
  unfold Obligations.FrameHandsItsPayloadToTheCommand
  intro x hx s p fits valid free
  obtain ⟨take, owner, answers⟩ := messageType_owner x hx
  obtain ⟨command, -⟩ := answers s.endCollection p
  have judged := s.endCollection.judgeOwn_owner (ownFrame_not_errored x.1 p) owner
  rw [exec_commandFrame (ownFrame_wellFormed x.1 fits) (.inr valid), State.endFrame_own free rfl, judged,
    ownFrame_payload]
  exact command.symm

/-- Settles O38, by the four outcomes of the judgement of a frame. -/
theorem framesThatReachNoCommand : Obligations.FramesThatReachNoCommand := by
  unfold Obligations.FramesThatReachNoCommand
  rintro s _ f shape free rfl
  have errored := frameErrored_iff (Frame.data_ne_nil shape)
  have own (h : f.dest = .own) (valid : s.clk.addressValid = true) :
      exec (.commandFrame f) s = .next (s.endCollection.judgeOwn f) := by
    rw [exec_commandFrame shape (.inr valid), State.endFrame_own free h]
  have broadcast (h : f.dest = .broadcast) : exec (.commandFrame f) s = .next (s.endCollection.judgeBroadcast f) := by
    rw [exec_commandFrame shape (.inl h), State.endFrame_broadcast free h]
  refine ⟨exec_commandFrame_invalid, fun h valid bad => ?_, fun ty h valid sound type sum unlisted => ?_, fun h bad => ?_,
    fun ty h type reset timeMark => ?_, ?_, ?_⟩
  · rw [own h valid, State.judgeOwn_errored _ (errored.mpr bad), ← List.getD_eq_getElem?_getD]
    rfl
  · have stored : f.data.length ≠ 1 := fun one => by simp [one] at type
    have good : frameErrored f = false := by
      rw [Bool.eq_false_iff, Ne, errored]
      rintro (mark | one | wrong)
      exacts [by simp [sound] at mark, stored one, wrong sum]
    have typed : (frameType f).getD 0 = ty := by rw [frameType, type, Option.getD_some]
    rw [own h valid, State.judgeOwn_unknown _ good (by rw [typed]; exact ownerOf_eq_none unlisted), typed]
    rfl
  · rw [broadcast h, State.judgeBroadcast_ignored _ (.inl (errored.mpr bad))]
    rfl
  · rw [broadcast h, State.judgeBroadcast_ignored _ (.inr ?_)]
    · rfl
    · rw [frameType, type]
      exact ⟨fun e => reset (Option.some.inj e), fun e => timeMark (Option.some.inj e)⟩
  · intro p _ frame
    obtain ⟨h, good, type, payload⟩ := ownFrame_broadcast frame
    rw [broadcast h, State.judgeBroadcast_reset _ good type payload]
    rfl
  · intro p _ frame
    obtain ⟨h, good, type, payload⟩ := ownFrame_broadcast frame
    rw [broadcast h, State.judgeBroadcast_timeMark _ good type payload]
    rfl

/-- R185: the reply that ends releases the command, unless a reset waits for it. -/
theorem exec_replyComplete {s : State} (held : s.clk.reply.isSome = true) : exec .replyComplete s =
    .next (if s.clk.resetPending then s.commandReset else s.releaseCommand) := by
  have some : ¬ s.clk.reply.isNone = true := by rw [Option.isNone_iff_eq_none]; exact Option.isSome_iff_ne_none.mp held
  exact congrArg Host.Outcome.next (if_neg some)

/-- Settles O39. -/
theorem heldCommandDiscardsFrames : Obligations.HeldCommandDiscardsFrames := by
  unfold Obligations.HeldCommandDiscardsFrames
  intro s f r shape reply
  have held : s.clk.reply.isSome = true := by rw [reply, Option.isSome_some]
  refine ⟨fun reaches => ?_, fun none => ?_, fun pending => ?_⟩
  · rw [exec_commandFrame shape reaches, State.endFrame_held held]
  · rw [exec_replyComplete held, none]
    rfl
  · rw [exec_replyComplete held, pending]
    rfl

end Sys2Proof.Machine
end

section
/-! PROOFS. The characters of a reply. -/

namespace Sys2Proof.Machine

/-- A character is its parts, the start bit in the least significant place. -/
theorem charBits_getLsbD_eq (data : Byte) (marker : Bool) (k : Nat) : (charBits data marker).getLsbD k =
    if k < 1 then (0#1).getLsbD k else if k - 1 < 8 then data.getLsbD (k - 1)
      else if k - 1 - 8 < 1 then (BitVec.ofBool marker).getLsbD (k - 1 - 8) else (1#1).getLsbD (k - 1 - 8 - 1) := by
  rw [← BitVec.getLsbD_append, ← BitVec.getLsbD_append, ← BitVec.getLsbD_append]
  rfl

/-- R178: the bits of a character that is sent, in the order in which they are sent. -/
theorem charBits_getLsbD (data : Byte) (marker : Bool) : (charBits data marker).getLsbD 0 = false ∧
    (∀ k < 8, (charBits data marker).getLsbD (k + 1) = data.getLsbD k) ∧
    (charBits data marker).getLsbD 9 = marker ∧ (charBits data marker).getLsbD 10 = true := by
  simp only [charBits_getLsbD_eq]
  refine ⟨rfl, fun k hk => ?_, ?_, rfl⟩
  · rw [if_neg (by omega), Nat.add_sub_cancel, if_pos hk]
  · cases marker <;> rfl

/-- Settles O40, by the check sum and the bits of a character. -/
theorem repliesAreCheckedFrames : Obligations.RepliesAreCheckedFrames :=
  ⟨fun _ _ _ _ _ => ⟨_, _, rfl, checkSum_checkOf _, rfl⟩, charBits_getLsbD⟩

end Sys2Proof.Machine
end

section
/-! PROOFS. POLL: what it delivers, and the bytes of a report. -/

namespace Sys2Proof.Machine

/-! ### The entries that fit -/

/-- The bytes of report entries, set in a row. -/
def reportBytes (es : List ReportEntry) : List Byte := (es.map ReportEntry.bytes).flatten

theorem reportBytes_cons_length (e : ReportEntry) (es : List ReportEntry) :
    (reportBytes (e :: es)).length = e.bytes.length + (reportBytes es).length := by
  simp [reportBytes]

theorem fitting_cons_fits {room : Nat} {e : ReportEntry} (es : List ReportEntry) (h : e.bytes.length ≤ room) :
    fitting room (e :: es) = fitting (room - e.bytes.length) es + 1 := if_pos h

theorem fitting_cons_full {room : Nat} {e : ReportEntry} (es : List ReportEntry) (h : ¬ e.bytes.length ≤ room) :
    fitting room (e :: es) = 0 := if_neg h

theorem fitting_le_length (room : Nat) (es : List ReportEntry) : fitting room es ≤ es.length := by
  induction es generalizing room with
  | nil => exact Nat.le_refl 0
  | cons e es ih =>
    by_cases h : e.bytes.length ≤ room
    · rw [fitting_cons_fits es h]; exact Nat.succ_le_succ (ih _)
    · rw [fitting_cons_full es h]; exact Nat.zero_le _

/-- R197: what is delivered fits in the room. -/
theorem reportBytes_take_fitting (room : Nat) (es : List ReportEntry) :
    (reportBytes (es.take (fitting room es))).length ≤ room := by
  induction es generalizing room with
  | nil => exact Nat.zero_le _
  | cons e es ih =>
    by_cases h : e.bytes.length ≤ room
    · rw [fitting_cons_fits es h, List.take_succ_cons, reportBytes_cons_length]
      have := ih (room - e.bytes.length)
      omega
    · rw [fitting_cons_full es h]; exact Nat.zero_le _

/-- R197: the first entry left would not have fitted. -/
theorem lt_of_drop_fitting {room : Nat} {es rest : List ReportEntry} {e : ReportEntry}
    (left : es.drop (fitting room es) = e :: rest) :
    room < (reportBytes (es.take (fitting room es))).length + e.bytes.length := by
  induction es generalizing room with
  | nil => simp at left
  | cons x es ih =>
    by_cases h : x.bytes.length ≤ room
    · rw [fitting_cons_fits es h, List.drop_succ_cons] at left
      rw [fitting_cons_fits es h, List.take_succ_cons, reportBytes_cons_length]
      have := ih left
      omega
    · rw [fitting_cons_full es h, List.drop_zero] at left
      obtain ⟨rfl, -⟩ := List.cons.inj left
      omega

theorem fitting_pos {room : Nat} {es : List ReportEntry} (some : es ≠ []) (small : ∀ e ∈ es, e.bytes.length ≤ room) :
    0 < fitting room es := by
  obtain ⟨e, rest, rfl⟩ := List.exists_cons_of_ne_nil some
  rw [fitting_cons_fits rest (small e List.mem_cons_self)]
  exact Nat.succ_pos _

theorem exec_poll (s : State) :
    exec (.poll []) s = .next ((s.withReports s.rqa.polled).sendReply pollType .ok s.rqa.pollBytes) := rfl

theorem ReportQueue.pollBytes_eq (q : ReportQueue) : q.pollBytes =
    [byte (q.entries.length - fitting 240 q.entries),
      byte ((if q.sequenceLoss then 1 else 0) + (if q.conditionLoss then 2 else 0)), byte (fitting 240 q.entries)] ++
      reportBytes (q.entries.take (fitting 240 q.entries)) := by
  have delivered : q.delivered.length = fitting 240 q.entries := List.length_take_of_le (fitting_le_length _ _)
  have remaining : q.remaining.length = q.entries.length - fitting 240 q.entries := List.length_drop
  rw [ReportQueue.pollBytes, delivered, remaining]
  rfl

/-! ### Codes of enumerated values -/

theorem ResetCause.code_eq (x : ResetCause) : x.code = [power, pin, command].idxOf x := by cases x <;> rfl
theorem RegResult.code_eq (x : RegResult) : x.code = [complete, congestion, unobtainable].idxOf x := by cases x <;> rfl
theorem Category.code_eq (x : Category) : x.code = [ordinary, priority, test].idxOf x := by cases x <;> rfl
theorem Direction.code_eq (x : Direction) : x.code = [outgoing, incoming].idxOf x := by cases x <;> rfl
theorem TestStatus.code_eq (x : TestStatus) : x.code = [done, abortedHold, noUnit, abortedSeized].idxOf x := by
  cases x <;> rfl
theorem HoldCause.code_eq (x : HoldCause) : x.code = [alignment, fsLoss].idxOf x := by cases x <;> rfl
theorem LinkEnding.code_eq (x : LinkEnding) : x.code = [outlet, inlet, overflow, holdLimit].idxOf x := by
  cases x <;> rfl
theorem AnomalyDetail.code_eq (x : AnomalyDetail) : x.code = [unexpectedCode, digitError].idxOf x := by cases x <;> rfl

theorem bytesOf_three (n : Nat) :
    bytesOf 3 n = [BitVec.ofNat 8 (n / 65536), BitVec.ofNat 8 (n / 256), BitVec.ofNat 8 n] := by
  have third : n / 256 / 256 = n / 65536 := Nat.div_div_eq_div_mul n 256 256
  simp only [bytesOf, third, List.nil_append, List.cons_append]

/-- Settles O52. The first part is what `fitting` says of the queue; in the second the bytes of each kind are the
layout's, with the enumerated values by their places. -/
theorem pollDeliversFromTheHead : Obligations.PollDeliversFromTheHead := by
  unfold Obligations.PollDeliversFromTheHead
  constructor
  · intro s
    refine ⟨s.withReports s.rqa.polled, fitting 240 s.rqa.entries, fitting_le_length _ _,
      reportBytes_take_fitting _ _, fun e rest left => lt_of_drop_fitting left, ?_, rfl,
      ReportQueue.wantsAttention_iff _, fitting_pos⟩
    rw [exec_poll, ReportQueue.pollBytes_eq]
    rfl
  · intro e two three four opt ref cause category digits htwo hthree hfour hopt href hcause hcategory hdigits
    obtain rfl : two = bytesOf 2 := funext fun n => (htwo n).trans (bytesOf_two n).symm
    obtain rfl : three = bytesOf 3 := funext fun n => (hthree n).trans (bytesOf_three n).symm
    obtain rfl : four = bytesOf 4 := funext fun n => (hfour n).trans (bytesOf_four n).symm
    obtain rfl : opt = optByte := funext hopt
    obtain rfl : ref = fun o => optPair (o.map (·.toNat)) := funext href
    obtain rfl : cause = Cause.code := funext fun c => (hcause c).trans c.code_eq.symm
    obtain rfl : category = fun o => optByte (o.map Category.code) := by
      funext o
      rw [hcategory, funext Category.code_eq]
    obtain rfl : digits = fun ds => byte ds.length :: digitBytes ds := funext hdigits
    refine ⟨byte e.body.kindCode, e.body.bytes, rfl, ?_⟩
    cases e.body <;> simp only [ReportBody.bytes, ClosedRecord.bytes, ← byte_bitVec, ← ResetCause.code_eq,
      ← RegResult.code_eq, ← Category.code_eq, ← Direction.code_eq, ← TestStatus.code_eq, ← HoldCause.code_eq,
      ← LinkEnding.code_eq, ← AnomalyDetail.code_eq, List.append_assoc, List.cons_append, List.nil_append] <;> rfl

end Sys2Proof.Machine
end

section
/-! PROOFS. The receiver of CMD: the voted bits of a character, the character that they spell, and what frame assembly
does with it. -/

namespace Sys2Proof.Machine

/-! ### One sample -/

/-- The state with another receiver of CMD. -/
def State.withReceiver (s : State) (r : LinkReceiver) : State := { s with clk := { s.clk with receiver := r } }

/-- R178: the receiver of a line at rest. -/
def LinkReceiver.atRest : LinkReceiver := { search := .searching, level := true }

theorem State.withReceiver_self {s : State} {r : LinkReceiver} (h : s.clk.receiver = r) : s.withReceiver r = s := by
  rw [← h]
  rfl

/-- R180: in SEARCHING, a sample that is no fall of the line leaves its level. -/
theorem State.hearSample_searching {s : State} {level : Bool} (search : s.clk.receiver.search = .searching)
    (noFall : (s.clk.receiver.level && !level) = false) :
    s.hearSample level = s.withReceiver { search := .searching, level := level } := by
  have sample : s.clk.receiver.sample level = ({ search := .searching, level := level }, none) := by
    simp only [LinkReceiver.sample, search, noFall]
    rfl
  rw [State.hearSample_of_none (by rw [sample]), sample]
  rfl

/-- R180: in SEARCHING, a fall of the line is sample 1 of a start bit. -/
theorem State.hearSample_fall {s : State} (rest : s.clk.receiver = .atRest) :
    s.hearSample false = s.withReceiver { search := .receiving 1 0 0, level := false } := by
  have sample : s.clk.receiver.sample false = ({ search := .receiving 1 0 0, level := false }, none) := by
    rw [rest]
    rfl
  rw [State.hearSample_of_none (by rw [sample]), sample]
  rfl

/-- R180: in RECEIVING, a sample that completes no character. -/
theorem State.hearSample_receiving {s : State} {n ones : Nat} {bits : CharBits} {before level : Bool}
    {search : SearchState} (step : receiveSample n ones bits level = (search, none)) :
    (s.withReceiver { search := .receiving n ones bits, level := before }).hearSample level =
      s.withReceiver { search := search, level := level } := by
  have sample : ({ search := .receiving n ones bits, level := before } : LinkReceiver).sample level =
      ({ search := search, level := level }, none) := by
    simp only [LinkReceiver.sample, step]
  have none : ((s.withReceiver { search := .receiving n ones bits, level := before }).clk.receiver.sample level).2 =
      none := congrArg Prod.snd sample
  rw [State.hearSample_of_none none]
  exact congrArg (fun x : LinkReceiver × Option Character => s.withReceiver x.1) sample

/-- R180, R182: in RECEIVING, a sample that completes a character. -/
theorem State.hearSample_completes {s : State} {n ones : Nat} {bits : CharBits} {before level : Bool}
    {search : SearchState} {c : Character} (step : receiveSample n ones bits level = (search, some c)) :
    (s.withReceiver { search := .receiving n ones bits, level := before }).hearSample level =
      (s.withReceiver { search := search, level := level }).takeCharacter c := by
  have sample : ({ search := .receiving n ones bits, level := before } : LinkReceiver).sample level =
      ({ search := search, level := level }, some c) := by
    simp only [LinkReceiver.sample, step]
  have some : ((s.withReceiver { search := .receiving n ones bits, level := before }).clk.receiver.sample level).2 =
      some c := congrArg Prod.snd sample
  rw [State.hearSample_of_some some]
  exact congrArg (fun x : LinkReceiver × Option Character => (s.withReceiver x.1).takeCharacter c) sample

/-! ### Samples in SEARCHING -/

theorem exec_characterReceived (s : State) (x : CharSamples) :
    exec (.characterReceived x) s = .next (x.foldl State.hearSample s) := rfl

/-- R178, R180: a line that stays at rest changes nothing. -/
theorem State.hear_atRest {s : State} (rest : s.clk.receiver = .atRest) {x : List Bool} (high : ∀ v ∈ x, v = true) :
    x.foldl State.hearSample s = s := by
  induction x with
  | nil => rfl
  | cons v x ih =>
    have one : s.hearSample true = s := by
      rw [State.hearSample_searching (by rw [rest]; rfl) (by rw [rest]; rfl)]
      exact State.withReceiver_self rest
    rw [List.foldl_cons, high v List.mem_cons_self, one]
    exact ih fun w hw => high w (List.mem_cons_of_mem v hw)

/-- R180: a line that stays at 0 in SEARCHING changes nothing. -/
theorem State.hear_low {s : State} (low : s.clk.receiver = { search := .searching, level := false }) {x : List Bool}
    (stays : ∀ v ∈ x, v = false) : x.foldl State.hearSample s = s := by
  induction x with
  | nil => rfl
  | cons v x ih =>
    have one : s.hearSample false = s := by
      rw [State.hearSample_searching (by rw [low]) (by rw [low]; rfl)]
      exact State.withReceiver_self low
    rw [List.foldl_cons, stays v List.mem_cons_self, one]
    exact ih fun w hw => stays w (List.mem_cons_of_mem v hw)

/-! ### Samples in RECEIVING -/

/-- R180: the value that at least two of the samples 7, 8 and 9 of bit `k` of a character show. -/
def votedBit (x : List Bool) (k : Nat) : Bool := decide (2 ≤ ((x.drop (16 * k + 6)).take 3).count true)

/-- R180: what the receiver holds after `n` samples of the character `x`: how many of the present bit's samples 7, 8 and
9 stood at 1, until they are voted on, and the votes of the bits whose ninth sample has come. -/
structure Voting (x : List Bool) (n ones : Nat) (bits : CharBits) : Prop where
  ones : ones = if n % 16 ≤ 8 then ((x.drop (16 * (n / 16) + 6)).take (n - (16 * (n / 16) + 6))).count true else 0
  bits : ∀ k < 11, bits.getLsbD k = (decide (16 * k + 8 < n) && votedBit x k)

theorem Voting.first (x : List Bool) : Voting x 1 0 0 :=
  ⟨by simp, fun k _ => by simp⟩

theorem count_take_succ {l : List Bool} {j : Nat} {v : Bool} (h : l[j]? = some v) :
    (l.take (j + 1)).count true = (l.take j).count true + v.toNat := by
  rw [List.take_add_one, h, List.count_append]
  cases v <;> rfl

/-- R180: up to the ninth sample of a bit, the count takes each of the samples 7, 8 and 9. -/
theorem Voting.countOnes {x : List Bool} {n ones : Nat} {bits : CharBits} {v : Bool} (h : Voting x n ones bits)
    (early : n % 16 ≤ 8) (sample : x[n]? = some v) :
    countOnes n ones v = ((x.drop (16 * (n / 16) + 6)).take (n + 1 - (16 * (n / 16) + 6))).count true := by
  have ones := h.ones
  rw [if_pos early] at ones
  unfold Machine.countOnes
  split_ifs with votes
  · have place : n + 1 - (16 * (n / 16) + 6) = n - (16 * (n / 16) + 6) + 1 := by omega
    have here : (x.drop (16 * (n / 16) + 6))[n - (16 * (n / 16) + 6)]? = some v := by
      rw [List.getElem?_drop, ← sample]
      congr 1
      omega
    rw [place, count_take_succ here, ones]
  · have none : n - (16 * (n / 16) + 6) = 0 ∧ n + 1 - (16 * (n / 16) + 6) = 0 := by omega
    rw [ones, none.1, none.2]

/-- R180: past the ninth sample of a bit nothing is counted. -/
theorem Voting.countOnes_late {x : List Bool} {n ones : Nat} {bits : CharBits} (h : Voting x n ones bits)
    (late : 8 < n % 16) (v : Bool) : Machine.countOnes n ones v = 0 := by
  have ones := h.ones
  rw [if_neg (by omega)] at ones
  rw [Machine.countOnes, if_neg (by omega), ones]

/-- R180: a sample other than a bit's ninth. -/
theorem Voting.next {x : List Bool} {n ones : Nat} {bits : CharBits} {v : Bool} (h : Voting x n ones bits)
    (between : n % 16 ≠ 8) (sample : x[n]? = some v) : Voting x (n + 1) (Machine.countOnes n ones v) bits where
  ones := by
    rcases Nat.lt_or_ge 8 (n % 16) with late | early
    · rw [h.countOnes_late late]
      split_ifs
      · rw [show n + 1 - (16 * ((n + 1) / 16) + 6) = 0 by omega]
        rfl
      · rfl
    · rw [h.countOnes early sample, if_pos (by omega), show (n + 1) / 16 = n / 16 by omega]
  bits k hk := by
    rw [h.bits k hk]
    congr 2
    rw [eq_iff_iff]
    omega

/-- R180: the vote at the ninth sample of a bit. -/
theorem Voting.vote {x : List Bool} {n ones : Nat} {bits : CharBits} {v : Bool} (h : Voting x n ones bits)
    (ninth : n % 16 = 8) (last : n ≤ 168) (sample : x[n]? = some v) :
    Voting x (n + 1) 0 (voteBit n (Machine.countOnes n ones v) bits) where
  ones := by rw [if_neg (by omega)]
  bits k hk := by
    have count := h.countOnes ninth.le sample
    rw [show n + 1 - (16 * (n / 16) + 6) = 3 by omega] at count
    have vote : decide (2 ≤ Machine.countOnes n ones v) = votedBit x (n / 16) := by rw [count, votedBit]
    have bit : (voteBit n (Machine.countOnes n ones v) bits).getLsbD k =
        (bits.getLsbD k || (votedBit x (n / 16) && decide (n / 16 = k))) := by
      rw [← vote]
      unfold voteBit
      split_ifs with most
      · simp [most, show n / 16 < 11 by omega]
      · simp [most]
    rw [bit, h.bits k hk]
    by_cases here : n / 16 = k
    · simp [here, show 16 * k + 8 = n by omega]
    · simp [here, show 16 * k + 8 < n ↔ 16 * k + 8 < n + 1 by omega]

/-- R180: what a sample of a character does before the character ends. -/
theorem Voting.receiveSample {x : List Bool} {n ones : Nat} {bits : CharBits} {v : Bool} (h : Voting x n ones bits)
    (last : n < 168) (start : n = 8 → votedBit x 0 = false) (sample : x[n]? = some v) :
    ∃ ones' bits', receiveSample n ones bits v = (.receiving (n + 1) ones' bits', none) ∧
      Voting x (n + 1) ones' bits' := by
  unfold Machine.receiveSample
  by_cases ninth : n % 16 = 8
  · have voted := h.vote ninth (by omega) sample
    refine ⟨_, _, ?_, voted⟩
    have goes : ¬ (n = 8 ∧ (voteBit n (Machine.countOnes n ones v) bits).getLsbD 0 = true) := by
      rintro ⟨first, one⟩
      rw [voted.bits 0 (by omega), start first, Bool.and_false] at one
      exact Bool.noConfusion one
    rw [if_pos ninth, if_neg goes, if_neg (by omega)]
  · exact ⟨_, _, if_neg ninth, h.next ninth sample⟩

/-- R180: a start bit that votes 1 ends the character. -/
theorem Voting.givesUp {x : List Bool} {ones : Nat} {bits : CharBits} {v : Bool} (h : Voting x 8 ones bits)
    (start : votedBit x 0 = true) (sample : x[8]? = some v) :
    Machine.receiveSample 8 ones bits v = (.searching, none) := by
  have one := (h.vote rfl (by omega) sample).bits 0 (by omega)
  rw [start] at one
  exact if_pos ⟨rfl, one⟩

/-- R180: the ninth sample of the stop bit completes the character that the voted bits spell. -/
theorem Voting.completes {x : List Bool} {ones : Nat} {bits : CharBits} {v : Bool} {c : Character}
    (h : Voting x 168 ones bits) (sample : x[168]? = some v) (data : ∀ k < 8, c.data.getLsbD k = votedBit x (k + 1))
    (marker : c.marker = votedBit x 9) (stop : c.framingError = !votedBit x 10) :
    Machine.receiveSample 168 ones bits v = (.searching, some c) := by
  have voted := (h.vote rfl le_rfl sample).bits
  have spelled : Character.ofBits (voteBit 168 (Machine.countOnes 168 ones v) bits) = c := by
    obtain ⟨d, m, e⟩ := c
    simp only [Character.ofBits, Character.mk.injEq]
    refine ⟨BitVec.eq_of_getLsbD_eq fun k hk => ?_, ?_, ?_⟩
    · rw [BitVec.getLsbD_extractLsb', data k hk, Nat.add_comm 1 k, voted (k + 1) (by omega)]
      simp [hk, show 16 * (k + 1) + 8 < 169 by omega]
    · rw [voted 9 (by omega)]
      exact marker.symm
    · rw [voted 10 (by omega)]
      exact stop.symm
  rw [← spelled]
  rfl

/-- R180: the receiver of a line at rest, after `n` samples of a character whose start bit is not given up. -/
theorem State.hear_receiving {s : State} {x : List Bool} (rest : s.clk.receiver = .atRest) (fall : x[0]? = some false)
    {n : Nat} (some : 1 ≤ n) (heard : n ≤ x.length) (last : n ≤ 168) (start : 9 ≤ n → votedBit x 0 = false) :
    ∃ ones bits before, Voting x n ones bits ∧
      (x.take n).foldl State.hearSample s = s.withReceiver { search := .receiving n ones bits, level := before } := by
  induction n, some using Nat.le_induction with
  | base =>
    refine ⟨0, 0, false, .first x, ?_⟩
    rw [List.take_add_one, fall]
    exact State.hearSample_fall rest
  | succ n some ih =>
    obtain ⟨ones, bits, before, voting, fold⟩ := ih (by omega) (by omega) fun h => start (by omega)
    have sample : x[n]? = .some x[n] := List.getElem?_eq_getElem (by omega)
    obtain ⟨ones', bits', step, voting'⟩ := voting.receiveSample (by omega) (fun h => start (by omega)) sample
    refine ⟨ones', bits', x[n], voting', ?_⟩
    rw [List.take_add_one, sample, List.foldl_append, fold]
    exact State.hearSample_receiving step

/-- R180: a start bit that votes 1 is given up at its ninth sample. -/
theorem State.hear_disturbance {s : State} {x : List Bool} {v : Bool} (rest : s.clk.receiver = .atRest)
    (fall : x[0]? = some false) (ninth : x[8]? = some v) (start : votedBit x 0 = true) :
    (x.take 9).foldl State.hearSample s = s.withReceiver { search := .searching, level := v } := by
  obtain ⟨heard, -⟩ := List.getElem?_eq_some_iff.mp ninth
  obtain ⟨ones, bits, before, voting, fold⟩ := State.hear_receiving (n := 8) rest fall (by omega) heard.le (by omega)
    (by omega)
  rw [List.take_add_one, ninth, List.foldl_append, fold]
  exact State.hearSample_receiving (voting.givesUp start ninth)

/-- R180: the ninth sample of the stop bit hands on the character that the voted bits spell. -/
theorem State.hear_character {s : State} {x : List Bool} {v : Bool} {c : Character} (rest : s.clk.receiver = .atRest)
    (fall : x[0]? = some false) (final : x[168]? = some v) (start : votedBit x 0 = false)
    (data : ∀ k < 8, c.data.getLsbD k = votedBit x (k + 1)) (marker : c.marker = votedBit x 9)
    (stop : c.framingError = !votedBit x 10) :
    (x.take 169).foldl State.hearSample s =
      (s.withReceiver { search := .searching, level := v }).takeCharacter c := by
  obtain ⟨heard, -⟩ := List.getElem?_eq_some_iff.mp final
  obtain ⟨ones, bits, before, voting, fold⟩ := State.hear_receiving (n := 168) rest fall (by omega) heard.le le_rfl
    fun _ => start
  rw [List.take_add_one, final, List.foldl_append, fold]
  exact State.hearSample_completes (voting.completes final data marker stop)

end Sys2Proof.Machine
end

section
/-! PROOFS. Frame assembly, and what it does with the characters that the receiver hands on. -/

namespace Sys2Proof.Machine

/-! ### The end of a frame -/

/-- R183: a frame ends at a LEN that is unreadable or out of range, or with LEN + 2 characters. -/
theorem ControlLink.frameEnded_store (c : ControlLink) (x : Character) : (c.store x).frameEnded = true ↔
    c.buffer = [] ∧ ((c.errored || x.framingError) = true ∨ x.data.toNat = 0 ∨ 250 < x.data.toNat) ∨
      ∃ l ∈ c.buffer.head?, (c.buffer ++ [x.data]).length = l.toNat + 2 := by
  unfold ControlLink.frameEnded ControlLink.store
  dsimp only
  cases c.buffer with
  | nil => simp [lenInRange]
  | cons l rest => simp

/-- R183: what has been stored when a frame ends has the shape of an ended frame. -/
theorem ControlLink.wellFormed_store {c : ControlLink} {x : Character} (dest : Dest)
    (len : ∀ l ∈ c.buffer.head?, 1 ≤ l.toNat ∧ l.toNat ≤ 250) (ended : (c.store x).frameEnded = true) :
    ({ dest := dest, errored := (c.store x).errored, data := (c.store x).buffer } : Frame).wellFormed = true := by
  unfold ControlLink.frameEnded ControlLink.store at ended
  unfold ControlLink.store Frame.wellFormed
  dsimp only at ended ⊢
  cases stored : c.buffer with
  | nil => simpa [stored] using ended
  | cons l rest =>
    obtain ⟨low, high⟩ := len l (by rw [stored]; rfl)
    have inRange : lenInRange l = true := by simp [lenInRange, low, high]
    rw [stored] at ended
    cases rest <;> simpa [inRange] using ended

/-! ### What frame assembly does with a character -/

theorem State.takeCharacter_header (s : State) {x : Character} (marker : x.marker = true)
    (clean : x.framingError = false) : s.takeCharacter x = { s with clk := s.clk.takeHeader x.data } :=
  if_pos (by rw [marker, clean]; rfl)

theorem State.takeCharacter_data (s : State) {x : Character} (h : x.marker = false ∨ x.framingError = true) :
    s.takeCharacter x = s.takeData x :=
  if_neg (by rcases h with h | h <;> simp [h])

theorem State.takeData_idle {s : State} (idle : s.clk.collection = .idle) (x : Character) : s.takeData x = s := by
  rw [State.takeData, idle]
  rfl

theorem State.takeData_ends {s : State} {dest : Dest} {x : Character} (collects : s.clk.collection.dest = some dest)
    (ended : (s.clk.store x).frameEnded = true) : s.takeData x =
      s.endFrame { dest := dest, errored := (s.clk.store x).errored, data := (s.clk.store x).buffer } := by
  rw [State.takeData, collects]
  exact if_pos ended

/-- R183: a character that ends a frame has the effect of the frame. -/
theorem State.takeData_commandFrame {s : State} {dest : Dest} {x : Character}
    (collects : s.clk.collection.dest = some dest) (valid : dest = .own → s.clk.addressValid = true)
    (len : ∀ l ∈ s.clk.buffer.head?, 1 ≤ l.toNat ∧ l.toNat ≤ 250) (ended : (s.clk.store x).frameEnded = true) :
    .next (s.takeData x) = exec (.commandFrame
      { dest := dest, errored := s.clk.errored || x.framingError, data := s.clk.buffer ++ [x.data] }) s := by
  have reaches : dest = .broadcast ∨ s.clk.addressValid = true := by
    cases dest
    · exact .inr (valid rfl)
    · exact .inl rfl
  rw [State.takeData_ends collects ended]
  exact (exec_commandFrame (ControlLink.wellFormed_store dest len ended) reaches).symm

theorem State.takeData_goes_on {s : State} {dest : Dest} {x : Character}
    (collects : s.clk.collection.dest = some dest) (goesOn : ¬ (s.clk.store x).frameEnded = true) :
    s.takeData x = { s with clk := s.clk.store x } := by
  rw [State.takeData, collects]
  exact if_neg goesOn

/-- R182: the collection that a header begins, with the broadcast address first. -/
theorem ControlLink.header_eq (c : ControlLink) (x : Byte) : c.header x =
    if x.toNat = 31 then .broadcast
    else if x.toNat < 32 ∧ c.addressValid = true ∧ x.toNat = c.address.toNat then .own else .idle := by
  unfold ControlLink.header
  by_cases high : 32 ≤ x.toNat
  · rw [if_pos high, if_neg (by omega), if_neg (by omega)]
  · rw [if_neg high]
    simp [show x.toNat < 32 by omega]

/-! ### The samples of clean line levels -/

theorem bitSamples_getElem? (bits : List Bool) (k : Nat) : (bitSamples bits)[k]? = bits[k / 16]? := by
  induction bits generalizing k with
  | nil => rfl
  | cons b bits ih =>
    have samples : bitSamples (b :: bits) = List.replicate 16 b ++ bitSamples bits := List.flatMap_cons
    rw [samples, List.getElem?_append, List.length_replicate]
    split_ifs with first
    · rw [List.getElem?_replicate, if_pos first, Nat.div_eq_of_lt first]
      rfl
    · rw [ih, show k / 16 = (k - 16) / 16 + 1 by omega, List.getElem?_cons_succ]

/-- R180: the vote of three clean samples is their level. -/
theorem votedBit_bitSamples {bits : List Bool} {k : Nat} {b : Bool} (h : bits[k]? = some b) :
    votedBit (bitSamples bits) k = b := by
  have voters : ((bitSamples bits).drop (16 * k + 6)).take 3 = List.replicate 3 b := by
    refine List.ext_getElem? fun i => ?_
    rw [List.getElem?_take, List.getElem?_replicate]
    split_ifs with hi
    · rw [List.getElem?_drop, bitSamples_getElem?, show (16 * k + 6 + i) / 16 = k by omega, h]
    · rfl
  rw [votedBit, voters]
  cases b <;> rfl

/-- R178: the levels of a character's eleven bits. -/
def Character.levels (c : Character) : List Bool :=
  [false] ++ (List.range 8).map c.data.getLsbD ++ [c.marker, !c.framingError]

theorem Character.samples_eq (c : Character) : c.samples = bitSamples c.levels := rfl

theorem Character.levels_getElem? (c : Character) {k : Nat} (h : k < 11) : c.levels[k]? = some
    (if k < 1 then false else if k < 9 then c.data.getLsbD (k - 1) else if k < 10 then c.marker
      else !c.framingError) := by
  interval_cases k <;> rfl

theorem Character.samples_getElem? (c : Character) {k : Nat} (h : k < 176) : c.samples[k]? = some
    (if k < 16 then false else if k < 144 then c.data.getLsbD (k / 16 - 1) else if k < 160 then c.marker
      else !c.framingError) := by
  rw [Character.samples_eq, bitSamples_getElem?, c.levels_getElem? (by omega)]
  simp only [show k / 16 < 1 ↔ k < 16 by omega, show k / 16 < 9 ↔ k < 144 by omega, show k / 16 < 10 ↔ k < 160 by omega]

/-- Settles O41, by the receiver's samples in SEARCHING and in RECEIVING and by what frame assembly does with the
character that they spell. -/
theorem charactersAreVotedAndCarried : Obligations.CharactersAreVotedAndCarried := by
  unfold Obligations.CharactersAreVotedAndCarried
  refine ⟨fun s u x y h => ?_, fun s x b low stays => ?_, fun s x search high => ?_,
    fun s x rest len fall start => ?_, ?_, fun c => ⟨rfl, fun k hk => c.samples_getElem? hk⟩⟩
  · rw [exec_characterReceived] at h ⊢
    cases h
    rw [exec_characterReceived, List.foldl_append]
  · rw [exec_characterReceived, List.foldl_append, State.hear_low low stays]
    exact congrArg Host.Outcome.next (State.hearSample_searching (by rw [low]) (by rw [low]; rfl))
  · rw [exec_characterReceived]
    have rises : s.hearSample true = s.withReceiver .atRest :=
      State.hearSample_searching search (Bool.and_false _)
    cases x with
    | nil => exact congrArg Host.Outcome.next rises
    | cons v x =>
      rw [List.cons_append, List.foldl_cons, high v List.mem_cons_self, rises, State.hear_atRest rfl]
      · rfl
      · intro w hw
        rcases List.mem_append.mp hw with hw | hw
        · exact high w (List.mem_cons_of_mem v hw)
        · exact List.mem_singleton.mp hw
  · have ninth : x[8]? = some (x.getD 8 true) := by
      rw [List.getD_eq_getElem?_getD, List.getElem?_eq_getElem (by omega), Option.getD_some]
    have given := State.hear_disturbance rest fall ninth (decide_eq_true start)
    rw [List.take_of_length_le len.le] at given
    rw [exec_characterReceived, given]
    rfl
  · rintro s _ x bit data marker err rest len fall votes start bits rfl rfl rfl
    have vote : ∀ k, votedBit x k = bit k := fun k => by
      rw [Bool.eq_iff_iff, votes, votedBit, decide_eq_true_eq]
    have final : x[168]? = some (x.getD 168 true) := by
      rw [List.getD_eq_getElem?_getD, List.getElem?_eq_getElem (by omega), Option.getD_some]
    have heard := State.hear_character (c := { data := data, marker := bit 9, framingError := !bit 10 }) rest fall final
      ((vote 0).trans start) (fun k hk => (bits k hk).trans (vote (k + 1)).symm) (vote 9).symm
      (congrArg not (vote 10).symm)
    rw [List.take_of_length_le len.le] at heard
    rw [exec_characterReceived, heard]
    refine ⟨fun mark clean => ?_, fun plain idle => ?_, ?_⟩
    · rw [State.takeCharacter_header _ mark clean, ControlLink.takeHeader, ControlLink.header_eq]
      rfl
    · rw [State.takeCharacter_data _ plain, State.takeData_idle]
      · rfl
      · exact idle
    · rintro dest buf e plain collects valid range rfl rfl
      have collecting : s.clk.collection.dest = some dest := by
        rw [collects]
        cases dest <;> rfl
      have ended := ControlLink.frameEnded_store s.clk { data := data, marker := bit 9, framingError := !bit 10 }
      rw [State.takeCharacter_data _ plain]
      refine ⟨fun ends => ?_, fun first more => ?_⟩
      · exact State.takeData_commandFrame (s := s.withReceiver _) collecting valid range (ended.mpr ends)
      · exact congrArg Host.Outcome.next (State.takeData_goes_on (s := s.withReceiver _) collecting fun h =>
          (ended.mp h).elim first fun ⟨l, hl, len⟩ => more l hl len)

end Sys2Proof.Machine
end

section
/-! PROOFS. A frame that is heard character by character. -/

namespace Sys2Proof.Machine

/-! ### The receiver at the end of a frame -/

theorem State.Replied.receiver {s u : State} {x : Byte} (h : s.Replied x u) : u.clk.receiver = s.clk.receiver := by
  obtain ⟨v, st, data, rfl, ⟨pending, clk⟩, -⟩ := h
  show v.clk.receiver = _
  rw [clk]

/-- R184: every operation that a TYPE names answers under that type. -/
theorem ownerOf_replied {x : Byte} {take : State → List Byte → State} (owner : ownerOf x = some take) (s : State)
    (p : List Byte) : s.Replied x (take s p) := by
  have listed : x ∈ messageTypes.map Prod.fst := by
    by_contra unlisted
    rw [ownerOf_eq_none unlisted] at owner
    cases owner
  obtain ⟨entry, member, rfl⟩ := List.mem_map.mp listed
  obtain ⟨take', owner', answers⟩ := messageType_owner entry member
  rw [owner] at owner'
  cases owner'
  exact (answers s p).2

theorem State.judgeOwn_receiver (s : State) (f : Frame) : (s.judgeOwn f).clk.receiver = s.clk.receiver := by
  unfold State.judgeOwn
  split_ifs
  · rfl
  · split
    · rfl
    · rename_i take owner
      exact (ownerOf_replied owner s _).receiver

/-- R187: a broadcast RESET leaves the level of the line what it is, and the receiver in SEARCHING. -/
theorem State.judgeBroadcast_receiver {s : State} (f : Frame) (rest : s.clk.receiver = .atRest) :
    (s.judgeBroadcast f).clk.receiver = .atRest := by
  have reset : s.commandReset.clk.receiver = .atRest := by
    show ({ level := s.clk.receiver.level } : LinkReceiver) = _
    rw [rest]
    rfl
  unfold State.judgeBroadcast State.broadcastReset State.broadcastTimeMark
  split_ifs
  exacts [rest, reset, rest, rest, rest, rest]

theorem State.endFrame_receiver {s : State} (f : Frame) (rest : s.clk.receiver = .atRest) :
    (s.endFrame f).clk.receiver = .atRest := by
  unfold State.endFrame State.judgeFrame
  split_ifs
  · exact rest
  · split
    · exact (State.judgeOwn_receiver _ f).trans rest
    · exact State.judgeBroadcast_receiver f rest

/-- R183: the end of a frame does not depend on what the collection holds. -/
theorem State.endFrame_congr {s u : State} (h : s.endCollection = u.endCollection) (f : Frame) :
    s.endFrame f = u.endFrame f := by rw [State.endFrame, h, State.endFrame]

/-! ### A character with clean line levels -/

theorem State.hears_cons (s : State) (c : Character) (cs : List Character) :
    s.hears (c :: cs) = (c.samples.foldl State.hearSample s).hears cs := by
  conv_lhs => unfold State.hears
  rw [exec_characterReceived]

/-- R178, R180: a character with clean line levels and a stop bit at 1, heard by a line at rest that it leaves at
rest. -/
theorem State.hear_clean {s : State} {c : Character} (rest : s.clk.receiver = .atRest) (stop : c.framingError = false)
    (kept : (s.takeCharacter c).clk.receiver = .atRest) : c.samples.foldl State.hearSample s = s.takeCharacter c := by
  have vote {k : Nat} (hk : k < 11) := votedBit_bitSamples (c.levels_getElem? hk)
  have last : c.samples[168]? = some true := by rw [c.samples_getElem? (by omega), stop]; rfl
  have heard := State.hear_character (c := c) rest (c.samples_getElem? (by omega)) last (vote (by omega))
    (fun k hk => by
      rw [Character.samples_eq, vote (by omega), if_neg (by omega), if_pos (by omega), Nat.add_sub_cancel])
    (vote (k := 9) (by omega)).symm (by rw [Character.samples_eq, vote (k := 10) (by omega)]; simp)
  have still : s.withReceiver { search := .searching, level := true } = s := State.withReceiver_self rest
  rw [still] at heard
  have high : ∀ v ∈ c.samples.drop 169, v = true := by
    intro v hv
    obtain ⟨i, hi⟩ := List.mem_iff_getElem?.mp hv
    rw [List.getElem?_drop] at hi
    have bound : 169 + i < 176 := (List.getElem?_eq_some_iff.mp hi).1
    rw [c.samples_getElem? bound, if_neg (by omega), if_neg (by omega), if_neg (by omega), stop] at hi
    exact (Option.some.inj hi).symm
  rw [← List.take_append_drop 169 c.samples, List.foldl_append, heard, State.hear_atRest kept high]

/-! ### The characters of a frame -/

/-- A data character of a frame (R178). -/
def dataCharacter (b : Byte) : Character := { data := b, marker := false, framingError := false }

/-- R183: a frame without error has LEN + 1 characters after a LEN in range, and ends at any other LEN. -/
theorem Frame.length_of_wellFormed {f : Frame} {len : Byte} {rest : List Byte} (shape : f.wellFormed = true)
    (sound : f.errored = false) (data : f.data = len :: rest) :
    if lenInRange len = true then rest.length = len.toNat + 1 else rest = [] := by
  unfold Frame.wellFormed at shape
  rw [data] at shape
  cases rest <;> simp_all

theorem lenInRange_eq_false {len : Byte} : lenInRange len = false ↔ len.toNat = 0 ∨ 250 < len.toNat := by
  rw [lenInRange, Bool.and_eq_false_iff, decide_eq_false_iff_not, decide_eq_false_iff_not]
  omega

/-- R183: a part of a well-formed frame without error, from LEN on, ends the frame exactly where it is the whole. -/
theorem frameEnded_part {f : Frame} {c : ControlLink} {b : Byte} {left : List Byte} (shape : f.wellFormed = true)
    (sound : f.errored = false) (clean : c.errored = false) (part : f.data = c.buffer ++ b :: left) :
    (c.store (dataCharacter b)).frameEnded = true ↔ left = [] := by
  rw [ControlLink.frameEnded_store, clean]
  cases stored : c.buffer with
  | nil =>
    have len := Frame.length_of_wellFormed shape sound (part.trans (by rw [stored, List.nil_append]))
    rw [← lenInRange_eq_false]
    split_ifs at len with inRange
    · simp [dataCharacter, inRange, List.ne_nil_of_length_eq_add_one len]
    · simp [dataCharacter, inRange, len]
  | cons l rest =>
    have len := Frame.length_of_wellFormed shape sound (part.trans (by rw [stored, List.cons_append]))
    split_ifs at len
    · simp only [List.length_append, List.length_cons] at len
      simp only [reduceCtorEq, false_and, false_or, List.head?_cons, Option.mem_some_iff, exists_eq_left',
        List.length_append, List.length_cons, List.length_nil, ← List.length_eq_zero_iff]
      omega
    · simp at len

/-- R182, R183: what is left of a frame's data, heard while the rest stands in the buffer, ends the frame. -/
theorem State.hears_data {f : Frame} (shape : f.wellFormed = true) (sound : f.errored = false) {s : State}
    {left : List Byte} (some : left ≠ []) (rest : s.clk.receiver = .atRest)
    (collects : s.clk.collection.dest = .some f.dest) (clean : s.clk.errored = false)
    (part : f.data = s.clk.buffer ++ left) : s.hears (left.map dataCharacter) = s.endFrame f := by
  induction left generalizing s with
  | nil => exact absurd rfl some
  | cons b left ih =>
    have ended := frameEnded_part shape sound clean part
    have taken : s.takeCharacter (dataCharacter b) = s.takeData (dataCharacter b) := s.takeCharacter_data (.inl rfl)
    rw [List.map_cons, State.hears_cons]
    cases left with
    | nil =>
      have whole : s.takeData (dataCharacter b) = s.endFrame f := by
        have frame : ({ dest := f.dest, errored := (s.clk.store (dataCharacter b)).errored
                        data := (s.clk.store (dataCharacter b)).buffer } : Frame) = f := by
          simp [ControlLink.store, clean, dataCharacter, ← part, ← sound]
        rw [State.takeData_ends collects (ended.mpr rfl), frame]
      rw [State.hear_clean rest rfl (by rw [taken, whole]; exact State.endFrame_receiver f rest), taken, whole]
      rfl
    | cons d left =>
      have goesOn := State.takeData_goes_on collects fun h => List.cons_ne_nil d left (ended.mp h)
      rw [State.hear_clean rest rfl (by rw [taken, goesOn]; exact rest), taken, goesOn]
      refine (ih (s := { s with clk := s.clk.store (dataCharacter b) }) (List.cons_ne_nil d left) rest collects ?_ ?_).trans
        (State.endFrame_congr rfl f)
      · show (s.clk.errored || false) = false
        rw [clean]
        rfl
      · show f.data = (s.clk.buffer ++ [b]) ++ d :: left
        rw [part, List.append_assoc]
        rfl

/-- Settles O42: the header begins the collection, and the data characters end the frame at its last. -/
theorem charactersAssembleTheFrame : Obligations.CharactersAssembleTheFrame := by
  unfold Obligations.CharactersAssembleTheFrame
  intro s f header shape sound rest addressed
  obtain ⟨begun, reaches⟩ : (s.clk.header header).dest = some f.dest ∧
      (f.dest = .broadcast ∨ s.clk.addressValid = true) := by
    rw [ControlLink.header_eq]
    rcases addressed with ⟨own, rfl, valid, other⟩ | ⟨broadcast, rfl⟩
    · have small := s.clk.address.isLt
      have number : (s.clk.address.setWidth 8).toNat = s.clk.address.toNat := by simp; omega
      have not31 : s.clk.address.toNat ≠ 31 := fun h => other (BitVec.eq_of_toNat_eq h)
      rw [number, if_neg not31, if_pos ⟨small, valid, rfl⟩, own]
      exact ⟨rfl, .inr valid⟩
    · rw [broadcast]
      exact ⟨rfl, .inl rfl⟩
  have taken := s.takeCharacter_header (x := { data := header, marker := true, framingError := false }) rfl rfl
  have heard : s.hears (frameCharacters f header) =
      ({ s with clk := s.clk.takeHeader header } : State).hears (f.data.map dataCharacter) := by
    rw [frameCharacters, State.hears_cons, State.hear_clean rest rfl (by rw [taken]; exact rest), taken]
    rfl
  rw [exec_commandFrame shape reaches, heard, State.hears_data (s := { s with clk := s.clk.takeHeader header }) shape
    sound (Frame.data_ne_nil shape) rest begun rfl rfl]
  exact congrArg Host.Outcome.next (State.endFrame_congr rfl f)

end Sys2Proof.Machine
end

section
/-! PROOFS. Reports that join the queue, merge or are dropped, and the attention that the queue asks for. -/

namespace Sys2Proof.Machine

/-! ### What a report leaves of the queue -/

section Admitted

variable {q : ReportQueue} {t : Option TrunkNo} {b : ReportBody} {x : Stamp}

/-- R194: the look for a queued entry of the report's kind and trunk. -/
theorem ReportQueue.any_takes_iff : (q.entries.any (·.takes t b)) = true ↔
    ∃ e ∈ q.entries, e.body.kindCode = b.kindCode ∧ e.trunk = t := by
  simp only [List.any_eq_true, ReportEntry.takes_iff]

theorem ReportQueue.admitCondition_merges (takes : ∃ e ∈ q.entries, e.body.kindCode = b.kindCode ∧ e.trunk = t) :
    q.admitCondition t b x = { q with entries := q.entries.map fun e =>
      if e.body.kindCode = b.kindCode ∧ e.trunk = t then
        { e with body := b, stamp := x, repeats := min 255 (e.repeats + 1) } else e } := by
  rw [ReportQueue.admitCondition, if_pos (ReportQueue.any_takes_iff.mpr takes)]
  simp only [ReportEntry.takes_iff, ReportEntry.merge]

theorem ReportQueue.admitCondition_joins (fresh : ¬ ∃ e ∈ q.entries, e.body.kindCode = b.kindCode ∧ e.trunk = t)
    (room : q.entries.length < 56) : q.admitCondition t b x = q.join t b x := by
  rw [ReportQueue.admitCondition, if_neg (mt ReportQueue.any_takes_iff.mp fresh)]
  exact if_pos room

theorem ReportQueue.admitCondition_drops (fresh : ¬ ∃ e ∈ q.entries, e.body.kindCode = b.kindCode ∧ e.trunk = t)
    (full : 56 ≤ q.entries.length) : q.admitCondition t b x = { q with conditionLoss := true } := by
  rw [ReportQueue.admitCondition, if_neg (mt ReportQueue.any_takes_iff.mp fresh)]
  exact if_neg (Nat.not_lt.mpr full)

/-- R194: a condition report is never lost as a sequenced one. -/
theorem ReportQueue.admitCondition_sequenceLoss : (q.admitCondition t b x).sequenceLoss = q.sequenceLoss := by
  unfold ReportQueue.admitCondition
  split_ifs <;> rfl

theorem ReportQueue.admitSequenced_joins (room : q.entries.length < 64) : q.admitSequenced t b x = q.join t b x :=
  if_pos room

theorem ReportQueue.admitSequenced_drops (full : 64 ≤ q.entries.length) :
    q.admitSequenced t b x = { q with sequenceLoss := true } := if_neg (Nat.not_lt.mpr full)

/-- R194: a sequenced report is never lost as a condition report. -/
theorem ReportQueue.admitSequenced_conditionLoss : (q.admitSequenced t b x).conditionLoss = q.conditionLoss := by
  unfold ReportQueue.admitSequenced
  split_ifs <;> rfl

end Admitted

/-! ### What a report leaves of the unit -/

section Submitted

variable (s : State) (t : Option TrunkNo) (b : ReportBody)

theorem State.submit_condition {b : ReportBody} (condition : b.isCondition = true) :
    s.submit t b = s.withReports (s.rqa.admitCondition t b s.tmb.counter) := if_pos condition

/-- R194, R195: the queue takes a sequenced report and is judged afresh, whether or not the loss is captured. -/
theorem State.submit_sequenced_rqa {b : ReportBody} (sequenced : b.isCondition = false) :
    (s.submit t b).rqa = (s.rqa.admitSequenced t b s.tmb.counter).judged := by
  rw [State.submit, if_neg (by simp [sequenced])]
  split_ifs
  · rfl
  · rw [State.capture_rqa]
    rfl

/-- R195: ATTN stands judged after every report. -/
theorem State.submit_attn : (s.submit t b).rqa.attn = (s.submit t b).rqa.wantsAttention := by
  cases kind : b.isCondition with
  | true =>
    rw [s.submit_condition t kind]
    rfl
  | false =>
    rw [s.submit_sequenced_rqa t kind]
    rfl

theorem State.capture_frame (k : FaultKind) : s.capture k t = { s with fault := (s.capture k t).fault } := by
  unfold State.capture
  split <;> rfl

/-- R194: a report changes the queue and the capture record alone. -/
theorem State.submit_frame :
    s.submit t b = { s with rqa := (s.submit t b).rqa, fault := (s.submit t b).fault } := by
  unfold State.submit
  split_ifs
  · rfl
  · rfl
  · rw [State.capture_rqa]
    exact State.capture_frame _ t .reportLoss

end Submitted

/-- Settles O35, by the class of the report and the room that it finds; the settings are those that every change of the
queue keeps. -/
theorem reportsJoinMergeOrAreDropped : Obligations.ReportsJoinMergeOrAreDropped := by
  unfold Obligations.ReportsJoinMergeOrAreDropped
  rintro s _ t b rfl
  obtain ⟨threshold, holdTime⟩ := (s.submit_inner t b).reports.settings
  refine ⟨fun condition takes => ?_, fun condition fresh room => ?_, fun condition fresh full => ?_,
    fun sequenced room => ?_, fun sequenced full => ?_, fun condition => ?_, fun sequenced => ?_, ?_,
    threshold, holdTime, s.submit_frame t b⟩
  · rw [s.submit_condition t condition, ReportQueue.admitCondition_merges takes]
    exact ⟨rfl, rfl⟩
  · rw [s.submit_condition t condition, ReportQueue.admitCondition_joins fresh room]
    exact ⟨rfl, rfl⟩
  · rw [s.submit_condition t condition, ReportQueue.admitCondition_drops fresh full]
    exact ⟨rfl, rfl⟩
  · rw [s.submit_sequenced_rqa t sequenced, ReportQueue.admitSequenced_joins room]
    exact ⟨rfl, rfl, (State.submit_room sequenced room).1⟩
  · rw [s.submit_sequenced_rqa t sequenced, ReportQueue.admitSequenced_drops full,
      (State.submit_full sequenced full).1]
    refine ⟨rfl, rfl, State.capture_empty, fun occupied => ?_⟩
    obtain ⟨f, held⟩ := Option.ne_none_iff_exists'.mp occupied
    rw [State.capture_beside held, ← held]
  · rw [s.submit_condition t condition]
    exact ⟨rfl, ReportQueue.admitCondition_sequenceLoss⟩
  · rw [s.submit_sequenced_rqa t sequenced]
    exact ReportQueue.admitSequenced_conditionLoss
  · rw [s.submit_attn t b, ReportQueue.wantsAttention_iff, threshold, holdTime]

/-- Settles O36: the queue is judged again as it stands. -/
theorem attentionFollowsTheOldestReport : Obligations.AttentionFollowsTheOldestReport := by
  unfold Obligations.AttentionFollowsTheOldestReport
  exact fun s => ⟨s.withReports s.rqa, rfl, rfl, ReportQueue.wantsAttention_iff _⟩

end Sys2Proof.Machine
end

section
/-! PROOFS. READ-FAULT and CLEAR-FAULT. -/

namespace Sys2Proof.Machine

/-! ### Numbers and the bytes that spell them -/

theorem natOf_concat (p : List Byte) (b : Byte) : natOf (p ++ [b]) = natOf p * 256 + b.toNat := by
  simp [natOf]

theorem bytesOf_length (w n : Nat) : (bytesOf w n).length = w := by
  induction w generalizing n with
  | zero => rfl
  | succ w ih => simp [bytesOf, ih]

/-- Bytes spell the number that they were made of, as far as they reach. -/
theorem natOf_bytesOf (w n : Nat) : natOf (bytesOf w n) = n % 256 ^ w := by
  induction w generalizing n with
  | zero => simp [bytesOf, natOf, Nat.mod_one]
  | succ w ih =>
    have low : (BitVec.ofNat 8 n).toNat = n % 256 := BitVec.toNat_ofNat n 8
    rw [bytesOf, natOf_concat, ih, low, pow_succ', Nat.mod_mul, Nat.mul_comm, Nat.add_comm]

/-- Bytes are those of the number that they spell. -/
theorem bytesOf_natOf (p : List Byte) : bytesOf p.length (natOf p) = p := by
  induction p using List.reverseRecOn with
  | nil => rfl
  | append_singleton p b ih =>
    have small : b.toNat < 256 := b.isLt
    have high : (natOf p * 256 + b.toNat) / 256 = natOf p := by omega
    have low : BitVec.ofNat 8 (natOf p * 256 + b.toNat) = b :=
      BitVec.eq_of_toNat_eq (by rw [BitVec.toNat_ofNat]; omega)
    rw [List.length_append, List.length_singleton, bytesOf, natOf_concat, high, low, ih]

/-- A time stamp is spelt by its own four bytes and by no others. -/
theorem natOf_eq_stamp_iff {p : List Byte} (len : p.length = 4) (x : Stamp) :
    x.toNat = natOf p ↔ p = bytesOf 4 x.toNat := by
  constructor
  · intro spelt
    rw [spelt, ← len, bytesOf_natOf]
  · rintro rfl
    exact ((natOf_bytesOf 4 _).trans (Nat.mod_eq_of_lt x.isLt)).symm

/-! ### READ-FAULT -/

theorem exec_readFault (s : State) (p : List Byte) : exec (.readFault p) s = .next (s.takeReadFault p) := rfl

theorem exec_readFault_nil (s : State) :
    exec (.readFault []) s = .next (s.sendReply 0x31 .ok s.fault.bytes) := rfl

theorem FaultRecord.bytes_empty {r : FaultRecord} (empty : r.held = none) : r.bytes = [0, 0, 0xFF, 0, 0, 0, 0, 0] := by
  rw [FaultRecord.bytes, empty]

theorem FaultRecord.bytes_held {r : FaultRecord} {f : CapturedFault} (held : r.held = some f) :
    r.bytes = [1, byte f.kind.code, trunkByte f.trunk] ++ bytesOf 4 f.time.toNat ++ [flagByte r.further] := by
  rw [FaultRecord.bytes, held]

/-! ### The judgement of a CLEAR-FAULT -/

section Judging

variable (s : State) {p : List Byte}

theorem State.judgeClearFault_badLength (len : p.length ≠ 5) : s.judgeClearFault p = .error .badLength := by
  rw [State.judgeClearFault, check_bind, beq_false_of_ne len]
  rfl

/-- R199: four bytes and the flag's byte reach the flag's judgement. -/
theorem byteAt_four_concat (len : p.length = 4) (x : Byte) : byteAt (p ++ [x]) 4 = x.toNat := by
  rw [byteAt, ← len]
  simp

theorem State.judgeClearFault_badValue (len : p.length = 4) {x : Byte} (high : 1 < x.toNat) :
    s.judgeClearFault (p ++ [x]) = .error .badValue := by
  rw [State.judgeClearFault, check_bind, byteAt_four_concat len, fieldOf_bind_none (flagOf_eq_none high)]
  simp [len]

/-- R199: a payload of the right form passes its flag on to the judgement against the record. -/
theorem clearFault_form (len : p.length = 4) (flag : Bool) (k : Bool → Judged Unit) :
    (check ((p ++ [flagByte flag]).length == 5) .badLength >>= fun _ =>
      fieldOf (flagOf (byteAt (p ++ [flagByte flag]) 4)) >>= k) = k flag := by
  rw [check_bind, byteAt_four_concat len, fieldOf_bind_some (flagOf_flagByte flag)]
  simp [len]

theorem State.judgeClearFault_empty (empty : s.fault.held = none) (len : p.length = 4) (flag : Bool) :
    s.judgeClearFault (p ++ [flagByte flag]) = .ok () := by
  rw [State.judgeClearFault, clearFault_form len, empty]
  rfl

/-- R199: the capture time and the flag must both be those of the record. -/
theorem State.judgeClearFault_held {f : CapturedFault} (held : s.fault.held = some f) (len : p.length = 4)
    (flag : Bool) : s.judgeClearFault (p ++ [flagByte flag]) =
      check (decide (p = bytesOf 4 f.time.toNat ∧ flag = s.fault.further)) .badState := by
  have same : (f.time.toNat == natOf p && s.fault.further == flag) =
      decide (p = bytesOf 4 f.time.toNat ∧ flag = s.fault.further) := by
    rw [Bool.eq_iff_iff, Bool.and_eq_true, beq_iff_eq, beq_iff_eq, natOf_eq_stamp_iff len, decide_eq_true_iff,
      eq_comm (a := flag)]
  rw [State.judgeClearFault, clearFault_form len, held, ← same]
  simp only [List.take_left' len]

end Judging

/-! ### CLEAR-FAULT -/

theorem exec_clearFault (s : State) (p : List Byte) : exec (.clearFault p) s = .next (s.takeClearFault p) := rfl

theorem State.takeClearFault_refused (s : State) {p : List Byte} {status : Status}
    (judged : s.judgeClearFault p = .error status) : s.takeClearFault p = s.sendReply clearFaultType status [] := by
  rw [State.takeClearFault, judged]
  rfl

theorem State.takeClearFault_accepted (s : State) {p : List Byte} (judged : s.judgeClearFault p = .ok ()) :
    s.takeClearFault p = s.emptyFault.sendReply clearFaultType .ok [] := by
  rw [State.takeClearFault, judged]
  rfl

theorem State.emptyFault_empty {s : State} (empty : s.fault.held = none) : s.emptyFault = s :=
  if_neg (by simp [empty])

theorem State.emptyFault_held {s : State} {f : CapturedFault} (held : s.fault.held = some f) :
    s.emptyFault = { s with fault := { held := none, further := false } } := if_pos (by simp [held])

/-- R198: with an empty record only an invalid address asserts FAULT. -/
theorem State.faultPin_of_empty {s : State} (empty : s.fault.held = none) :
    s.faultPin = true ↔ s.clk.addressValid = false := by
  simp [State.faultPin, empty]

/-- Settles O54, by what the judgement of a CLEAR-FAULT answers. -/
theorem faultRecordIsReadAndClearedAsRead : Obligations.FaultRecordIsReadAndClearedAsRead := by
  unfold Obligations.FaultRecordIsReadAndClearedAsRead
  intro s p x
  refine ⟨fun empty => ⟨?_, fun a b d e flag => ?_⟩, fun f held => ⟨?_, ?_, fun flag len differs => ?_⟩,
    fun payload => ?_, fun len => ?_, fun len high => ?_⟩
  · rw [exec_readFault_nil, FaultRecord.bytes_empty empty]
  · have judged := s.judgeClearFault_empty (p := [a, b, d, e]) empty rfl flag
    have taken := s.takeClearFault_accepted judged
    rw [State.emptyFault_empty empty] at taken
    exact congrArg Host.Outcome.next taken
  · rw [exec_readFault_nil, FaultRecord.bytes_held held]
    cases f.trunk <;> rfl
  · have judged : s.judgeClearFault (bytesOf 4 f.time.toNat ++ [flagByte s.fault.further]) = .ok () := by
      rw [s.judgeClearFault_held held (bytesOf_length 4 _), decide_eq_true ⟨rfl, rfl⟩]
      rfl
    refine ⟨s.emptyFault, ?_, State.emptyFault_held held, ?_⟩
    · rw [exec_clearFault, s.takeClearFault_accepted judged, clearFaultType]
    · rw [State.emptyFault_held held]
      exact State.faultPin_of_empty rfl
  · have judged : s.judgeClearFault (p ++ [flagByte flag]) = .error .badState := by
      rw [s.judgeClearFault_held held len, decide_eq_false (not_and_or.mpr differs)]
      rfl
    rw [exec_clearFault, s.takeClearFault_refused judged, clearFaultType]
  · exact congrArg Host.Outcome.next (if_neg payload)
  · rw [exec_clearFault, s.takeClearFault_refused (s.judgeClearFault_badLength len), clearFaultType]
  · rw [exec_clearFault, s.takeClearFault_refused (s.judgeClearFault_badValue len high), clearFaultType]

end Sys2Proof.Machine
end

section
/-! PROOFS. The step, and the queue of commands that wait: no command touches it. -/

namespace Sys2Proof.Machine

/-! ### The step -/

/-- Settles O1, by the two branches of the step. -/
theorem stepTakesTheFrontCommand : Obligations.StepTakesTheFrontCommand := by
  unfold Obligations.StepTakesTheFrontCommand
  exact ⟨fun _ _ _ => rfl, fun _ => rfl⟩

/-! ### Alignment and hold -/

theorem State.takeCode_pending (s : State) (t : TrunkNo) (code : LineCode) :
    (s.takeCode t code).pending = s.pending := by
  unfold State.takeCode
  dsimp only
  split_ifs
  · rfl
  · exact (State.decodeLine_inner _ t).pending
  · rfl

theorem State.takeFrame_pending (s : State) (f : SigFrame) : (s.takeFrame f).pending = s.pending :=
  List.foldlRecOn (motive := fun x : State => x.pending = s.pending) _ _ rfl
    fun x hx t _ => (x.takeCode_pending t _).trans hx

theorem State.startHold_pending (s : State) (cause : HoldCause) : (s.startHold cause).pending = s.pending := by
  obtain ⟨-, -, -, -, -, pending, -, -⟩ := s.startHold_rest cause
  exact pending

theorem State.alignmentFsLoss_pending (s : State) : s.alignmentFsLoss.pending = s.pending := by
  unfold State.alignmentFsLoss
  split
  · exact s.startHold_pending _
  · rfl
  · rfl

/-- With or without a hold start on record. -/
theorem State.endHold_pending (s : State) : s.endHold.pending = s.pending := by
  unfold State.endHold State.tellHoldEnd
  exact (((State.submit_inner _ none _).trans (State.forTrunks_inner _ _ State.decadicHoldEnd_inner)).trans
    (State.serveTests_inner _)).pending

theorem State.hitHoldLimit_pending (s : State) : s.hitHoldLimit.pending = s.pending :=
  s.hitHoldLimit_inner.pending.trans (s.capture_pending .holdLimit none)

/-! ### The host commands -/

/-- A command of the host that leaves the waiting commands alone, whatever its payload. -/
def KeepsPending (take : State → List Byte → State) : Prop := ∀ s p, (take s p).pending = s.pending

/-- The reply is part of the control link. -/
theorem State.answered_pending {s u : State} (h : u.pending = s.pending) (x : Byte) (st : Status) (d : List Byte) :
    (u.sendReply x st d).pending = s.pending := h

/-- R39: a command that carries one trunk number and has an effect on that trunk. -/
theorem State.judgeTrunk_pending (s : State) (p : List Byte) (x : Byte) (allowed : TrunkState → Bool)
    {effect : TrunkNo → State} (h : ∀ t, (effect t).pending = s.pending) :
    (match s.judgeTrunk p allowed with
      | .error status => s.refuse x status
      | .ok t => (effect t).accept x).pending = s.pending := by
  split
  · rfl
  · exact State.answered_pending (h _) _ _ _

theorem State.useProfile_pending (s : State) (n : ProfileNo) : (s.useProfile n).pending = s.pending := by
  unfold State.useProfile
  refine (State.forTrunks_inner _ _ fun x t => (x.decodeLine_inner t).ite).pending.trans ?_
  rw [State.resendCodes_eq, State.withTrunks_pending]

theorem State.takeSetProfile_pending : KeepsPending State.takeSetProfile := fun s p => by
  unfold State.takeSetProfile
  split
  · rfl
  · exact State.answered_pending (State.useProfile_pending _ _) _ _ _

theorem State.takeGetProfile_pending : KeepsPending State.takeGetProfile := fun s p => by
  unfold State.takeGetProfile
  split <;> rfl

theorem State.enterConfigured_pending (s : State) (t : TrunkNo) : (s.enterConfigured t).pending = s.pending := by
  unfold State.enterConfigured
  split_ifs
  · rfl
  · exact (s.enterIdle_inner t).pending

theorem State.takeSetTrunk_pending : KeepsPending State.takeSetTrunk := fun s p => by
  unfold State.takeSetTrunk
  split
  · rfl
  · exact State.answered_pending (State.enterConfigured_pending _ _) _ _ _

theorem State.takeSetAnalysis_pending : KeepsPending State.takeSetAnalysis := fun s p => by
  unfold State.takeSetAnalysis
  split <;> rfl

theorem State.takeGetAnalysis_pending : KeepsPending State.takeGetAnalysis := fun s p => by
  unfold State.takeGetAnalysis
  split <;> rfl

theorem State.takeSetReporting_pending : KeepsPending State.takeSetReporting := fun s p => by
  unfold State.takeSetReporting
  split_ifs <;> rfl

theorem State.takeSeize_pending : KeepsPending State.takeSeize := fun s p => by
  unfold State.takeSeize
  split
  · rfl
  · exact State.answered_pending (s.startCall_inner _).pending _ _ _
  · exact State.answered_pending ((s.startCall_inner _).trans (State.makeLink_inner _ _ _)).pending _ _ _

theorem State.takeAddDigits_pending : KeepsPending State.takeAddDigits := fun s p => by
  unfold State.takeAddDigits
  split
  · rfl
  · exact State.answered_pending (s.appendDigits_inner _).pending _ _ _

theorem State.takeAcceptDigits_pending : KeepsPending State.takeAcceptDigits := fun s p => by
  unfold State.takeAcceptDigits
  split
  · rfl
  · exact State.answered_pending (s.acceptNumber_inner _ _).pending _ _ _

theorem State.takeAnswer_pending : KeepsPending State.takeAnswer := fun s p =>
  s.judgeTrunk_pending p _ _ fun t => (s.answerCall_inner t).pending

theorem State.takeClearBack_pending : KeepsPending State.takeClearBack := fun s p =>
  s.judgeTrunk_pending p _ _ fun _ => rfl

theorem State.takeRelease_pending : KeepsPending State.takeRelease := fun s p =>
  s.judgeTrunk_pending p _ _ fun t => ((s.endRegisterWork_inner t _).trans (State.clearOut_inner _ t)).pending

theorem State.blockTrunk_pending (s : State) (t : TrunkNo) : (s.blockTrunk t).pending = s.pending := by
  unfold State.blockTrunk
  dsimp only
  split_ifs <;> rfl

theorem State.unblockTrunk_pending (s : State) (t : TrunkNo) : (s.unblockTrunk t).pending = s.pending := by
  unfold State.unblockTrunk
  dsimp only
  split_ifs
  · exact (State.enterIdle_inner _ t).pending
  · rfl

theorem State.takeBlock_pending : KeepsPending State.takeBlock := fun s p =>
  s.judgeTrunk_pending p _ _ s.blockTrunk_pending

theorem State.takeUnblock_pending : KeepsPending State.takeUnblock := fun s p =>
  s.judgeTrunk_pending p _ _ s.unblockTrunk_pending

theorem State.takeResetTrunk_pending : KeepsPending State.takeResetTrunk := fun s p =>
  s.judgeTrunk_pending p _ _ fun t => (s.resetTrunk_inner t).pending

theorem State.takeQueryTrunk_pending : KeepsPending State.takeQueryTrunk := fun s p => by
  unfold State.takeQueryTrunk
  split <;> rfl

theorem State.takeMeasure_pending : KeepsPending State.takeMeasure := fun s p => by
  unfold State.takeMeasure
  split
  · rfl
  · exact State.answered_pending (s.testRequest_inner _ _).pending _ _ _

theorem State.takeQueryPool_pending : KeepsPending State.takeQueryPool := fun s p => by
  unfold State.takeQueryPool
  split_ifs <;> rfl

theorem State.clearTraffic_pending (s : State) (g : GroupNo) (clear : Bool) :
    (s.clearTraffic g clear).pending = s.pending := by
  cases clear <;> rfl

theorem State.takeReadTraffic_pending : KeepsPending State.takeReadTraffic := fun s p => by
  unfold State.takeReadTraffic
  split
  · rfl
  · exact State.answered_pending (s.clearTraffic_pending _ _) _ _ _

theorem State.takePoll_pending : KeepsPending State.takePoll := fun s p => by
  unfold State.takePoll
  split_ifs <;> rfl

theorem State.takeReadFault_pending : KeepsPending State.takeReadFault := fun s p => by
  unfold State.takeReadFault
  split_ifs <;> rfl

theorem State.emptyFault_pending (s : State) : s.emptyFault.pending = s.pending := by
  unfold State.emptyFault
  split_ifs <;> rfl

theorem State.takeClearFault_pending : KeepsPending State.takeClearFault := fun s p => by
  unfold State.takeClearFault
  split
  · rfl
  · exact State.answered_pending s.emptyFault_pending _ _ _

theorem State.takeIdentify_pending : KeepsPending State.takeIdentify := fun s p => by
  unfold State.takeIdentify
  split_ifs <;> rfl

theorem State.takeReset_pending : KeepsPending State.takeReset := fun s p => by
  unfold State.takeReset
  split_ifs <;> rfl

/-- R200: a reset by command keeps the commands that wait (log entry 19). -/
theorem State.broadcastReset_pending : KeepsPending State.broadcastReset := fun s p => by
  unfold State.broadcastReset
  split_ifs <;> rfl

theorem State.takeTimeMark_pending : KeepsPending State.takeTimeMark := fun s p => by
  unfold State.takeTimeMark
  split_ifs <;> rfl

theorem State.broadcastTimeMark_pending : KeepsPending State.broadcastTimeMark := fun s p => by
  unfold State.broadcastTimeMark
  split_ifs <;> rfl

/-! ### The control link -/

/-- R184: every command that a TYPE names leaves the waiting commands alone. -/
theorem ownerOf_pending {x : Byte} {take : State → List Byte → State} (h : ownerOf x = some take) :
    KeepsPending take := by
  unfold ownerOf at h
  split at h <;> cases h
  exacts [State.takeSetProfile_pending, State.takeGetProfile_pending, State.takeSetTrunk_pending,
    State.takeSetAnalysis_pending, State.takeGetAnalysis_pending, State.takeSetReporting_pending,
    State.takeSeize_pending, State.takeAddDigits_pending, State.takeAcceptDigits_pending, State.takeAnswer_pending,
    State.takeClearBack_pending, State.takeRelease_pending, State.takeBlock_pending, State.takeUnblock_pending,
    State.takeResetTrunk_pending, State.takeQueryTrunk_pending, State.takeMeasure_pending,
    State.takeQueryPool_pending, State.takeReadTraffic_pending, State.takePoll_pending, State.takeReadFault_pending,
    State.takeClearFault_pending, State.takeIdentify_pending, State.takeReset_pending, State.takeTimeMark_pending]

theorem State.judgeOwn_pending (s : State) (f : Frame) : (s.judgeOwn f).pending = s.pending := by
  unfold State.judgeOwn
  split_ifs
  · rfl
  · split
    · rfl
    · rename_i take owner
      exact ownerOf_pending owner s _

theorem State.judgeBroadcast_pending (s : State) (f : Frame) : (s.judgeBroadcast f).pending = s.pending := by
  unfold State.judgeBroadcast
  split_ifs
  · rfl
  · exact State.broadcastReset_pending s _
  · exact State.broadcastTimeMark_pending s _
  · rfl

theorem State.endFrame_pending (s : State) (f : Frame) : (s.endFrame f).pending = s.pending := by
  unfold State.endFrame State.judgeFrame
  split_ifs
  · rfl
  · split
    · exact s.endCollection.judgeOwn_pending f
    · exact s.endCollection.judgeBroadcast_pending f

theorem State.takeData_pending (s : State) (x : Character) : (s.takeData x).pending = s.pending := by
  unfold State.takeData
  split
  · rfl
  · dsimp only
    split_ifs
    · exact s.endFrame_pending _
    · rfl

theorem State.takeCharacter_pending (s : State) (x : Character) : (s.takeCharacter x).pending = s.pending := by
  unfold State.takeCharacter
  split_ifs
  · rfl
  · exact s.takeData_pending x

theorem State.hearSample_pending (s : State) (level : Bool) : (s.hearSample level).pending = s.pending := by
  unfold State.hearSample
  dsimp only
  split
  · rfl
  · exact State.takeCharacter_pending _ _

theorem State.hearSamples_pending (s : State) (samples : CharSamples) :
    (samples.foldl State.hearSample s).pending = s.pending :=
  List.foldlRecOn (motive := fun x : State => x.pending = s.pending) _ _ rfl
    fun x hx level _ => (x.hearSample_pending level).trans hx

/-! ### The answers of the events -/

/-- The answer is a next state in which the same commands wait as in `s`. -/
def NextKeepsPending (s : State) (a : Answer) : Prop := ∃ u, a = .next u ∧ u.pending = s.pending

theorem nextKeepsPending {s u : State} (h : u.pending = s.pending) : NextKeepsPending s (.next u) := ⟨u, rfl, h⟩

/-- A command that answers an inner state. -/
theorem Inner.nextKeepsPending {s u : State} (i : Inner s u) : NextKeepsPending s (.next u) := ⟨u, rfl, i.pending⟩

theorem execFsLoss_pending (s : State) : NextKeepsPending s (execFsLoss s) := by
  unfold execFsLoss
  split_ifs
  · exact nextKeepsPending (State.alignmentFsLoss_pending _)
  · exact nextKeepsPending rfl

theorem execMillisecondEvent_pending (s : State) : NextKeepsPending s (execMillisecondEvent s) := by
  unfold execMillisecondEvent
  refine nextKeepsPending ?_
  dsimp only [State.withReports]
  split_ifs <;> rfl

theorem execTransmitFrameEvent_pending (s : State) : NextKeepsPending s (execTransmitFrameEvent s) := by
  unfold execTransmitFrameEvent
  split_ifs <;> exact nextKeepsPending rfl

theorem execDurationTick_pending (s : State) : NextKeepsPending s (execDurationTick s) := by
  unfold execDurationTick
  split_ifs
  · exact nextKeepsPending (State.forTrunks_inner _ _ State.tickRecord_inner).pending
  · exact nextKeepsPending rfl

theorem execHuntAlignmentWord_pending (s : State) (f : SigFrame) :
    NextKeepsPending s (execHuntAlignmentWord f s) := by
  unfold execHuntAlignmentWord
  split_ifs
  · exact nextKeepsPending (State.takeFrame_pending _ f)
  all_goals exact nextKeepsPending rfl

theorem execReceivedFrameEvent_pending (s : State) (f : SigFrame) :
    NextKeepsPending s (execReceivedFrameEvent f s) := by
  unfold execReceivedFrameEvent
  split_ifs
  · exact nextKeepsPending (State.takeFrame_pending _ f)
  · exact nextKeepsPending rfl
  · exact nextKeepsPending (s.startHold_pending _)
  · exact nextKeepsPending rfl

theorem execHoldAlignmentWord_pending (s : State) (f : SigFrame) :
    NextKeepsPending s (execHoldAlignmentWord f s) := by
  unfold execHoldAlignmentWord
  split_ifs
  · exact nextKeepsPending rfl
  · exact nextKeepsPending ((s.endHold.takeFrame_pending f).trans s.endHold_pending)
  all_goals exact nextKeepsPending rfl

theorem execHoldLimitExpiry_pending (s : State) : NextKeepsPending s (execHoldLimitExpiry s) := by
  unfold execHoldLimitExpiry
  split_ifs
  · exact nextKeepsPending s.hitHoldLimit_pending
  · exact nextKeepsPending rfl

theorem execToneBlockEvent_pending (s : State) (u : UnitNo) : NextKeepsPending s (execToneBlockEvent u s) := by
  unfold execToneBlockEvent
  split
  · exact (s.blockEnded_inner u _).nextKeepsPending
  · exact nextKeepsPending rfl

theorem execCommandFrame_pending (s : State) (f : Frame) : NextKeepsPending s (execCommandFrame f s) := by
  refine nextKeepsPending ?_
  split_ifs
  · exact s.endFrame_pending f
  · rfl

theorem execReplyComplete_pending (s : State) : NextKeepsPending s (execReplyComplete s) := by
  refine nextKeepsPending ?_
  split_ifs <;> rfl

theorem execReset_pending (s : State) (dest : Dest) (p : List Byte) : NextKeepsPending s (execReset dest p s) := by
  cases dest
  · exact nextKeepsPending (State.takeReset_pending s p)
  · exact nextKeepsPending (State.broadcastReset_pending s p)

theorem execTimeMark_pending (s : State) (dest : Dest) (p : List Byte) :
    NextKeepsPending s (execTimeMark dest p s) := by
  cases dest
  · exact nextKeepsPending (State.takeTimeMark_pending s p)
  · exact nextKeepsPending (State.broadcastTimeMark_pending s p)

/-! ### Every command -/

theorem exec_pending (c : Instr) (s : State) : NextKeepsPending s (exec c s) := by
  cases c with
  | powerOnReset straps => exact nextKeepsPending rfl
  | pinReset straps => exact nextKeepsPending rfl
  | fsEdge => exact nextKeepsPending rfl
  | fsLoss => exact execFsLoss_pending s
  | millisecondEvent => exact execMillisecondEvent_pending s
  | transmitFrameEvent => exact execTransmitFrameEvent_pending s
  | durationTick => exact execDurationTick_pending s
  | huntAlignmentWord frame => exact execHuntAlignmentWord_pending s frame
  | receivedFrameEvent frame => exact execReceivedFrameEvent_pending s frame
  | holdAlignmentWord frame => exact execHoldAlignmentWord_pending s frame
  | holdLimitExpiry => exact execHoldLimitExpiry_pending s
  | ackTimerExpiry t => exact (s.ackTimedOut_inner t).ite.nextKeepsPending
  | answerWaitExpiry t => exact (s.forcedClear_inner t _).ite.nextKeepsPending
  | clearBackTimerExpiry t => exact (s.forcedClear_inner t _).ite.nextKeepsPending
  | releaseTimerExpiry t => exact (s.releaseTimedOut_inner t).ite.nextKeepsPending
  | guardTimerExpiry t => exact (s.finishCall_inner t).ite.nextKeepsPending
  | sendBreakExpiry t => exact Inner.nextKeepsPending (by split; exacts [s.breakSent_inner t _, .refl s])
  | sendMakeExpiry t => exact Inner.nextKeepsPending (by split; exacts [s.makeSent_inner t _, .refl s])
  | pauseTimerExpiry t => exact Inner.nextKeepsPending (by split; exacts [s.pauseEnded_inner t _, .refl s])
  | decadicSenderDigitWait t => exact Inner.nextKeepsPending (by split; exacts [s.outOutcome_inner t _, .refl s])
  | digitEndTimerExpiry t =>
    exact Inner.nextKeepsPending (by split; exacts [(s.digitEndExpired_inner t _).ite, .refl s])
  | clearRecognitionExpiry t => exact (s.clearForward_inner t).ite.nextKeepsPending
  | decadicDigitWaitExpiry t =>
    exact Inner.nextKeepsPending (by split; exacts [(s.digitWaitEnded_inner t _).ite, .refl s])
  | callWaitExpiry t => exact Inner.nextKeepsPending (by split; exacts [s.callWaitEnded_inner _, .refl s])
  | testWaitExpiry t => exact (s.testWaitEnded_inner t).ite.nextKeepsPending
  | toneBlockEvent u => exact execToneBlockEvent_pending s u
  | senderDigitWaitExpiry t => exact Inner.nextKeepsPending (by split; exacts [s.endSender_inner t _, .refl s])
  | senderInterlockExpiry t => exact Inner.nextKeepsPending (by split; exacts [s.endSender_inner t _, .refl s])
  | receiverInterlockExpiry t =>
    exact Inner.nextKeepsPending (by split; exacts [s.receiverInterlockEnded_inner t _, .refl s])
  | receiverDigitWaitExpiry t =>
    exact Inner.nextKeepsPending (by split; exacts [s.receiverWaitEnded_inner t _ _, .refl s])
  | pulseTimerExpiry t => exact Inner.nextKeepsPending (by split; exacts [s.endTone_inner true t, .refl s])
  | hostDecisionWaitExpiry t => exact Inner.nextKeepsPending (by split; exacts [s.outsideOutcome_inner t _ _, .refl s])
  | attnHoldTimeReached => exact nextKeepsPending rfl
  | commandFrame frame => exact execCommandFrame_pending s frame
  | replyComplete => exact execReplyComplete_pending s
  | setProfile p => exact nextKeepsPending (State.takeSetProfile_pending s p)
  | getProfile p => exact nextKeepsPending (State.takeGetProfile_pending s p)
  | setTrunk p => exact nextKeepsPending (State.takeSetTrunk_pending s p)
  | setAnalysis p => exact nextKeepsPending (State.takeSetAnalysis_pending s p)
  | getAnalysis p => exact nextKeepsPending (State.takeGetAnalysis_pending s p)
  | setReporting p => exact nextKeepsPending (State.takeSetReporting_pending s p)
  | seize p => exact nextKeepsPending (State.takeSeize_pending s p)
  | addDigits p => exact nextKeepsPending (State.takeAddDigits_pending s p)
  | acceptDigits p => exact nextKeepsPending (State.takeAcceptDigits_pending s p)
  | answer p => exact nextKeepsPending (State.takeAnswer_pending s p)
  | clearBack p => exact nextKeepsPending (State.takeClearBack_pending s p)
  | release p => exact nextKeepsPending (State.takeRelease_pending s p)
  | block p => exact nextKeepsPending (State.takeBlock_pending s p)
  | unblock p => exact nextKeepsPending (State.takeUnblock_pending s p)
  | resetTrunk p => exact nextKeepsPending (State.takeResetTrunk_pending s p)
  | queryTrunk p => exact nextKeepsPending (State.takeQueryTrunk_pending s p)
  | measure p => exact nextKeepsPending (State.takeMeasure_pending s p)
  | queryPool p => exact nextKeepsPending (State.takeQueryPool_pending s p)
  | readTraffic p => exact nextKeepsPending (State.takeReadTraffic_pending s p)
  | poll p => exact nextKeepsPending (State.takePoll_pending s p)
  | readFault p => exact nextKeepsPending (State.takeReadFault_pending s p)
  | clearFault p => exact nextKeepsPending (State.takeClearFault_pending s p)
  | identify p => exact nextKeepsPending (State.takeIdentify_pending s p)
  | reset dest p => exact execReset_pending s dest p
  | timeMark dest p => exact execTimeMark_pending s dest p
  | sampleEvent lrx swx => exact nextKeepsPending rfl
  | characterReceived samples => exact nextKeepsPending (s.hearSamples_pending samples)

/-- Settles O2, command by command: what each does is inner, a reply, or a change of fields other than the queue. -/
theorem everyCommandHasANextState : Obligations.EveryCommandHasANextState := by
  unfold Obligations.EveryCommandHasANextState
  exact exec_pending

end Sys2Proof.Machine
end
